-- ==== Sys2Proof/Word.lean ====
section
/-! DEFINITION. The two bit-vector widths that the block moves: a stream byte and a register word. -/

namespace Sys2Proof

/-- One byte of a stream (20_memory.md R70) or one symbol (00_scope.md R12). -/
abbrev Byte := BitVec 8

/-- One 32-bit register, counter, weight or command word (10_state.md R38, 30_encoding.md R100). -/
abbrev Word := BitVec 32

end Sys2Proof
end

