-- ==== Sys2Proof/Syntax.lean ====
section
/-! DEFINITION. The commands of spec/opcode_table.json (30_encoding.md R102), one constructor a row. No command has
an operand field (R103), so no constructor has an argument. -/

namespace Sys2Proof

/-- The 13 commands of HUFF256. -/
inductive Instr where
  | nop           -- 0x00, R130
  | reset         -- 0x01, R131
  | rewind        -- 0x02, R132
  | count         -- 0x10, R141
  | buildTree     -- 0x11, R145
  | deriveCodes   -- 0x12, R149
  | writeHeader   -- 0x20, R171
  | encodeBody    -- 0x21, R174
  | encode        -- 0x2F, R177, macro
  | readHeader    -- 0x30, R191
  | decodeBody    -- 0x31, R194
  | verify        -- 0x32, R197
  | decode        -- 0x3F, R199, macro
deriving DecidableEq, Repr

end Sys2Proof
end

