-- ==== Sys2Proof/WellFormed.lean ====
section
/-! DEFINITION. Which words are legal commands, written from the list of RESERVED encodings (30_encoding.md R101,
R104) and not from the opcode map, so that it can be held against the decoder. A term of `Instr` carries no field
(R103), so every term of `Instr` is well-formed; what can be ill-formed is the word. -/

namespace Sys2Proof

/-- RSV, bits [31:8], is zero (R100, R101). -/
def reservedFieldZero (w : Word) : Bool := w.extractLsb' 8 24 == 0

/-- The opcode lies in one of the reserved ranges of R104: 0x03 to 0x0F, 0x13 to 0x1F, 0x22 to 0x2E, 0x33 to 0x3E,
0x40 to 0xFF. -/
def opcodeReserved (op : Byte) : Bool :=
  (0x03 ≤ op.toNat && op.toNat ≤ 0x0F) || (0x13 ≤ op.toNat && op.toNat ≤ 0x1F)
    || (0x22 ≤ op.toNat && op.toNat ≤ 0x2E) || (0x33 ≤ op.toNat && op.toNat ≤ 0x3E)
    || 0x40 ≤ op.toNat

/-- A legal command word (R101). -/
def wordWellFormed (w : Word) : Bool := reservedFieldZero w && !opcodeReserved (w.setWidth 8)

end Sys2Proof
end

