-- ==== Sys2Proof/Decode.lean ====
section
/-! DEFINITION. The command word's decoder and encoder (30_encoding.md Part A). A command is one 32-bit bus word
(R105), and a bus word has no byte order (20_memory.md R80), so the decoder reads a word. -/

namespace Sys2Proof

/-- Why a word is no command (R104). Both raise ILLEGAL_COMMAND when written while idle. -/
inductive DecodeError where
  /-- Bits [31:8] are not all zero. -/
  | reservedField
  /-- The opcode is not in the opcode map. -/
  | reservedOpcode
deriving DecidableEq, Repr

/-- The opcode map (R102). -/
def opcodeMap : List (Byte × Instr) :=
  [(0x00, .nop), (0x01, .reset), (0x02, .rewind),
   (0x10, .count), (0x11, .buildTree), (0x12, .deriveCodes),
   (0x20, .writeHeader), (0x21, .encodeBody), (0x2F, .encode),
   (0x30, .readHeader), (0x31, .decodeBody), (0x32, .verify), (0x3F, .decode)]

/-- The command with opcode `op`, if there is one (R102). -/
def instrOfOpcode (op : Byte) : Option Instr :=
  (opcodeMap.find? fun row => row.1 == op).map Prod.snd

/-- The decoder, total on words (R101). -/
def decode (w : Word) : Except DecodeError Instr :=
  if w.extractLsb' 8 24 ≠ 0 then .error .reservedField
  else match instrOfOpcode (w.setWidth 8) with
    | some i => .ok i
    | none => .error .reservedOpcode

/-- The group number GRP of a command (R100: 0 control, 1 tree builder, 2 encoder, 3 decoder). -/
def groupOf : Instr → BitVec 4
  | .nop | .reset | .rewind => 0
  | .count | .buildTree | .deriveCodes => 1
  | .writeHeader | .encodeBody | .encode => 2
  | .readHeader | .decodeBody | .verify | .decode => 3

/-- The function number FN within the group; 0xF is the group's macro (R100). -/
def functionOf : Instr → BitVec 4
  | .nop => 0 | .reset => 1 | .rewind => 2
  | .count => 0 | .buildTree => 1 | .deriveCodes => 2
  | .writeHeader => 0 | .encodeBody => 1 | .encode => 0xF
  | .readHeader => 0 | .decodeBody => 1 | .verify => 2 | .decode => 0xF

/-- The opcode OP = GRP:FN (R100). -/
def opcodeOf (i : Instr) : Byte := groupOf i ++ functionOf i

/-- The encoder: RSV = 0 and OP in bits [7:0] (R100). -/
def encode (i : Instr) : Word := (0 : BitVec 24) ++ opcodeOf i

/-- The command in the low `nbits` bits of `w`, with every bit above them zero; a word that needs more than 32 bits
is none (R105). -/
def decodeTableWord (nbits w : Nat) : Option Instr :=
  let v := w % 2 ^ nbits
  if v < 2 ^ 32 then
    match decode (BitVec.ofNat 32 v) with
    | .ok i => some i
    | .error _ => none
  else none

end Sys2Proof
end

