-- ==== Sys2Proof/Config.lean ====
section
/-! DEFINITION. What HUFF256 fixes (00_scope.md R6) and the free values: the values the spec leaves
unspecified ("a model draws it freely", 10_state.md R64; 93_implementation_defined.md U1 to U9). Each free
value is an opaque constant applied to the number of its draw, so nothing can be proved of it. -/

namespace Sys2Proof.Config

/-- The longest possible code (R6 `MAX_CODE_LEN`), which is also the depth of the path stack (R149). -/
abbrev maxCodeLen : Nat := 255

/-- The header's size in bytes (R6 `HDR_BYTES`). -/
abbrev headerBytes : Nat := 1024

/-- The largest `last_bits` byte a header may hold (R6 `LAST_BITS_MAX`). -/
abbrev lastBitsMax : Nat := 7

/-- The most bytes one COUNT accepts (R6 `MAX_COUNT_BYTES`). -/
abbrev maxCountBytes : Word := 0xFFFFFFFF

/-- The constant of the ID register (10_state.md R39). -/
abbrev idWord : Word := 0x48554631

/-- FREE VALUE: what the `k`-th read of an unspecified window returns (R38, R56 to R61; log 6). -/
opaque freeWord (k : Nat) : Word

/-- FREE VALUE: W of node `n` after a reset (U1; log 5). -/
opaque freeWeight (k n : Nat) : Word

/-- FREE VALUE: LEAF of node `n` after a reset (U1; log 5). -/
opaque freeLeaf (k n : Nat) : Bool

/-- FREE VALUE: L of node `n` after a reset (U1; log 5). -/
opaque freeLeft (k n : Nat) : Fin 511

/-- FREE VALUE: R of node `n` after a reset (U1; log 5). -/
opaque freeRight (k n : Nat) : Fin 511

/-- FREE VALUE: ROOT after a reset (U2; log 5). -/
opaque freeRoot (k : Nat) : Fin 511

/-- FREE VALUE: LEN of symbol `n` after a reset (U3; log 5). -/
opaque freeLen (k n : Nat) : Byte

/-- FREE VALUE: VAL of symbol `n` after a reset (U3; log 5). -/
opaque freeVal (k n : Nat) : BitVec 256

/-- FREE VALUE: NEXT after a reset and outside BUILD_TREE (U4; log 5, log 8). -/
opaque freeNext (k : Nat) : BitVec 10

/-- FREE VALUE: PENDING after a reset and outside DECODE_BODY (U5; log 5, log 8). -/
opaque freePending (k : Nat) : Byte

/-- FREE VALUE: WALK after a reset and outside DECODE_BODY (U6; log 5, log 8). -/
opaque freeWalk (k : Nat) : Fin 511

end Sys2Proof.Config
end

