-- ==== Sys2Proof/Machine/State.lean ====
section
/-! DEFINITION. The state of the block (10_state.md R20) and of the host beside it (20_memory.md R70, R86), as plain
data, and the state after reset (R64). -/

namespace Sys2Proof.Machine

/-- A node index, 0 to 510 (R28; the arena has `NODES` = 511 entries, R6). The u9 fields L, R, ROOT and WALK hold node indices (log 7). -/
abbrev NodeIdx := Fin 511

/-- A verification counter, a value in `0 .. 2^32`; `2^32` means saturated (R27; log 14). -/
abbrev VCount := Fin 4294967297

/-- One node of the arena (R28). The symbol of a leaf is its own index and needs no field. -/
structure Node where
  /-- W -/
  weight : Word
  /-- LEAF -/
  leaf : Bool
  /-- L, meaningful when LEAF = 0 -/
  left : NodeIdx
  /-- R, meaningful when LEAF = 0 -/
  right : NodeIdx
deriving DecidableEq, Repr

/-- One entry of the code table (R30). -/
structure Code where
  /-- LEN -/
  len : Byte
  /-- VAL, the code bits right-justified -/
  val : BitVec 256
deriving DecidableEq, Repr

/-- The error causes (60_exceptions.md R221). -/
inductive Cause where
  | none
  | headerTruncated
  | lastBitsAbsent
  | lastBitsRange
  | walkOffTree
  | checksumMismatch
  | illegalCommand
  | sequence
  | inputTooLong
deriving DecidableEq, Repr

/-- PHASE (R23): the internal position of the primitive now running; one constructor for each kind of micro-step of
R262. The host never sees it. -/
inductive Phase where
  /-- no command runs -/
  | idle
  /-- NOP's one micro-step (R130) -/
  | nop
  /-- REWIND's one micro-step (R132) -/
  | rewind
  /-- COUNT clears the tables (R141) -/
  | countClear
  /-- COUNT reads a byte -/
  | countRead
  /-- BUILD_TREE makes the leaves and the queue (R145) -/
  | buildInit
  /-- BUILD_TREE merges, or ends when one node is left -/
  | buildMerge
  /-- DERIVE_CODES checks TREE_VALID (R149) -/
  | deriveCheck
  /-- DERIVE_CODES visits; the path stack holds the subtrees still to visit, next first, each with its path -/
  | deriveVisit (stack : List (NodeIdx × List Bool))
  /-- WRITE_HEADER checks CODES_VALID (R171) -/
  | headerCheck
  /-- WRITE_HEADER emits header byte `n`, 0 to 1023 -/
  | headerByte (n : Nat)
  /-- WRITE_HEADER computes `last_bits` -/
  | headerSum
  /-- WRITE_HEADER emits `last_bits` -/
  | headerLast
  /-- ENCODE_BODY checks CODES_VALID (R174) -/
  | packCheck
  /-- ENCODE_BODY reads a byte -/
  | packRead
  /-- ENCODE_BODY emits a whole byte -/
  | packEmit
  /-- ENCODE_BODY emits the final partial byte -/
  | packFlush
  /-- READ_HEADER reads header byte `n`, 0 to 1023; `v` holds the bytes of the counter read so far (R191) -/
  | readCounter (n : Nat) (v : Word)
  /-- READ_HEADER reads the `last_bits` byte -/
  | readLast
  /-- DECODE_BODY checks TREE_VALID (R194) -/
  | walkCheck
  /-- DECODE_BODY clears VFREQ and sets WALK -/
  | walkClear
  /-- DECODE_BODY reads a byte -/
  | walkRead
  /-- DECODE_BODY walks bit `left - 1` of PENDING; `held` is the byte just read, none when PENDING is the last byte -/
  | walkBits (left : Nat) (held : Option Byte)
  /-- VERIFY checks DEC_DONE (R197) -/
  | verifyCheck
  /-- VERIFY compares the counters of symbol `sym` -/
  | verifyAt (sym : Byte)
deriving DecidableEq, Repr

/-- One move of the host or one turn it leaves the sequencer (20_memory.md R86, 30_encoding.md R108, R109; log 2). -/
inductive HostMove where
  /-- `rd`: a 32-bit read of the window at byte offset `off` (R38) -/
  | read (off : Nat)
  /-- `wr`, `cmd`: a 32-bit write of the window at byte offset `off` (R38) -/
  | write (off : Nat) (v : Word)
  /-- `attach`: attach a source (R71) -/
  | attach (bytes : List Byte)
  /-- the platform asserts hardware reset (R250) -/
  | hardReset
  /-- `wait`: read STATUS until BUSY = 0 (R108) -/
  | wait
  /-- the sequencer takes one micro-step before the host's next move (R86) -/
  | turn
  /-- the host writes the command word and makes no move before BUSY = 0 (R94, R109 `run`; log 1) -/
  | command (w : Word)
deriving DecidableEq, Repr

/-- Everything the spec gives the machine. The block's fields are the six classes of R20; `src` and `sink` are the
host's (R70); `script`, `reads` and `draws` are the model's own (log 2, log 12, log 6). -/
structure State where
  /-- ISSUED_OP (R23) -/
  issuedOp : Byte
  /-- CUR_OP (R23) -/
  curOp : Byte
  /-- MSTEP (R23) -/
  mstep : BitVec 3
  /-- PHASE (R23) -/
  phase : Phase
  /-- STATUS.BUSY (R42) -/
  busy : Bool
  /-- STATUS.DONE (R42) -/
  done : Bool
  /-- STATUS.ERR (R42) -/
  err : Bool
  /-- STATUS.OVERRUN (R42) -/
  overrun : Bool
  /-- STATUS.TREE_VALID (R42, R63) -/
  treeValid : Bool
  /-- STATUS.CODES_VALID (R42, R63) -/
  codesValid : Bool
  /-- STATUS.DEC_DONE (R42, R63) -/
  decDone : Bool
  /-- STATUS.TRAIL_PARTIAL (R42, R63) -/
  trailPartial : Bool
  /-- CTRL.IE (R40) -/
  ie : Bool
  /-- ERR_CAUSE.CAUSE (R44) -/
  errCause : Cause
  /-- ERR_CAUSE.OP (R44) -/
  errOp : Byte
  /-- ERR_INFO (R45) -/
  errInfo : Word
  /-- LAST_BITS (R46) -/
  lastBits : BitVec 3
  /-- TOTAL (R36, R47) -/
  total : Word
  /-- IN_POS, unbounded (R35); IN_COUNT reads it mod 2^32 (R48) -/
  inPos : Nat
  /-- OUT_COUNT (R49) -/
  outCount : Word
  /-- FREQ_IDX (R50) -/
  freqIdx : Byte
  /-- CODE_IDX: SYM in [7:0], WORD in [10:8] (R55) -/
  codeIdx : BitVec 11
  /-- NODE_IDX (R58) -/
  nodeIdx : BitVec 9
  /-- FREQ (R26) -/
  freq : Vector Word 256
  /-- VFREQ (R27) -/
  vfreq : Vector VCount 256
  /-- the NODE arena: W, LEAF, L, R (R28) -/
  nodes : Vector Node 511
  /-- ROOT (R29) -/
  root : NodeIdx
  /-- LEN and VAL (R30) -/
  codes : Vector Code 256
  /-- Q, ascending and without repeats (R31) -/
  q : List NodeIdx
  /-- NEXT (R31) -/
  nextNode : BitVec 10
  /-- ACC, first bit first (R32) -/
  acc : List Bool
  /-- PENDING (R33) -/
  pending : Byte
  /-- PENDING_VALID (R33) -/
  pendingValid : Bool
  /-- WALK (R34) -/
  walk : NodeIdx
  /-- SRC, the host's attached source (R70) -/
  src : List Byte
  /-- SINK, the host's output sink (R70) -/
  sink : List Byte
  /-- the host's moves still to come, oldest first (log 2) -/
  script : List HostMove
  /-- what the host's reads returned: offset and value, oldest first (log 12) -/
  reads : List (Nat × Word)
  /-- how many unspecified values have been drawn (log 6) -/
  draws : Nat
deriving DecidableEq, Repr

/-- Why the machine stops. The block itself never stops with a fault: its errors are next states (R226). These name
states that no run reaches (log 11). All are safe. -/
inductive Fault where
  /-- DERIVE_CODES met a path of more than 255 branches. No tree of BUILD_TREE has one (R150), and the path stack has
  255 entries (R149). Raised by DERIVE_CODES, alone or in ENCODE. Safe. -/
  | pathTooDeep
  /-- BUILD_TREE finds Q empty, or two nodes in Q and NEXT above 510, where the arena has no node (R146 (a) says neither
  occurs). Raised by BUILD_TREE's micro-steps. Safe. -/
  | queueBroken
  /-- BUSY = 1 while PHASE is idle (R25 says a running command has a position). Raised by the sequencer. Safe. -/
  | noPosition
deriving DecidableEq, Repr

/-- Why the model gives no transition. -/
inductive Refusal where
  /-- No meaning yet, raised by `exec`'s arms alone. Safe. -/
  | notModelled (mnemonic : String)
  /-- A register access that is not at a multiple of 4, or lies outside the 256-byte window: "a model refuses the host
  action that makes it" (20_memory.md R80). Raised by the host's reads and writes. Safe. -/
  | unsupportedAccess
  /-- An attach while BUSY = 1: "only while STATUS.BUSY = 0" (20_memory.md R71, 93 V6). Raised by the host's attach.
  Safe. -/
  | attachWhileBusy
deriving DecidableEq, Repr

/-- What a step or a meaning answers. -/
abbrev Result := Host.Outcome State Fault Refusal

/-- The state right after reset (R64), with nothing attached, an empty sink and no host move to come (log 3). The
fields R64 leaves unspecified hold the values log 4 names. -/
def State.reset : State where
  issuedOp := 0
  curOp := 0
  mstep := 0
  phase := .idle
  busy := false
  done := false
  err := false
  overrun := false
  treeValid := false
  codesValid := false
  decDone := false
  trailPartial := false
  ie := false
  errCause := .none
  errOp := 0
  errInfo := 0
  lastBits := 0
  total := 0
  inPos := 0
  outCount := 0
  freqIdx := 0
  codeIdx := 0
  nodeIdx := 0
  freq := Vector.replicate 256 0
  vfreq := Vector.replicate 256 0
  nodes := Vector.replicate 511 { weight := 0, leaf := false, left := 0, right := 0 }
  root := 0
  codes := Vector.replicate 256 { len := 0, val := 0 }
  q := []
  nextNode := 256
  acc := []
  pending := 0
  pendingValid := false
  walk := 0
  src := []
  sink := []
  script := []
  reads := []
  draws := 0

end Sys2Proof.Machine
end

