-- ==== Sys2Proof/Machine/Flags.lean ====
section
/-! DEFINITION. The flags: STATUS as a word (10_state.md R42), the interrupt level (R62), write-one-to-clear (R43), the
error registers as words (R44, 60_exceptions.md R221), and the events that clear the validity flags (R63). -/

namespace Sys2Proof.Machine

/-- The interrupt output, a level (R62, 60 R231). -/
def irq (s : State) : Bool := s.ie && (s.done || s.err)

/-- STATUS as the host reads it (R42). Bits [15:9] read 0. -/
def statusWord (s : State) : Word :=
  s.issuedOp ++ s.curOp ++ (0 : BitVec 7) ++ BitVec.ofBool (irq s)
    ++ BitVec.ofBool s.trailPartial ++ BitVec.ofBool s.decDone
    ++ BitVec.ofBool s.codesValid ++ BitVec.ofBool s.treeValid
    ++ BitVec.ofBool s.overrun ++ BitVec.ofBool s.err
    ++ BitVec.ofBool s.done ++ BitVec.ofBool s.busy

/-- A write of `v` to STATUS: W1C of DONE, ERR and OVERRUN, every other bit ignored (R43). -/
def clearStatus (v : Word) (s : State) : State :=
  { s with
    done := s.done && !v.getLsbD 1
    err := s.err && !v.getLsbD 2
    overrun := s.overrun && !v.getLsbD 3 }

/-- The value of ERR_CAUSE[7:0] for each cause (60 R221). -/
def causeCode : Cause → Byte
  | .none => 0x00
  | .headerTruncated => 0x01
  | .lastBitsAbsent => 0x02
  | .lastBitsRange => 0x03
  | .walkOffTree => 0x04
  | .checksumMismatch => 0x05
  | .illegalCommand => 0x10
  | .sequence => 0x11
  | .inputTooLong => 0x12

/-- ERR_CAUSE as the host reads it: OP in [15:8], CAUSE in [7:0] (R44). -/
def errCauseWord (s : State) : Word := (0 : BitVec 16) ++ s.errOp ++ causeCode s.errCause

/-- The start of COUNT and of READ_HEADER clears TREE_VALID, CODES_VALID and DEC_DONE (R63). -/
def clearAllValid (s : State) : State :=
  { s with treeValid := false, codesValid := false, decDone := false }

/-- The start of BUILD_TREE and a host write of FREQ_DATA clear TREE_VALID and CODES_VALID (R63, R52). -/
def clearTreeValid (s : State) : State := { s with treeValid := false, codesValid := false }

/-- The info word of SEQUENCE: the STATUS bit value of the missing flag (60 R229). -/
def treeValidBit : Word := 0x10
/-- CODES_VALID's STATUS bit value (60 R229). -/
def codesValidBit : Word := 0x20
/-- DEC_DONE's STATUS bit value (60 R229). -/
def decDoneBit : Word := 0x40

end Sys2Proof.Machine
end

