-- ==== Sys2Proof/Machine/Operands.lean ====
section
/-! DEFINITION. The operands of the commands. No command has an operand field (30_encoding.md R103): every operand is an
entry of an internal table, a field of a register, or a byte of a stream. This file holds the table accesses and the
bit and byte layouts those operands have. -/

namespace Sys2Proof.Machine

/-- `T[i]` of a 256-entry table (00_scope.md R10). -/
def getAt {α : Type} (t : Vector α 256) (i : Byte) : α := t[i.toNat]'i.isLt

/-- `T[i] <- v` of a 256-entry table (R10). -/
def setAt {α : Type} (t : Vector α 256) (i : Byte) (v : α) : Vector α 256 := t.set i.toNat v i.isLt

/-- The 256 symbols, upward (R11 `for s in 0..255`). -/
def symbols : List Byte := (List.range 256).map (BitVec.ofNat 8)

/-- The leaf node of a symbol (10_state.md R28: node `s` is the leaf of symbol `s`). -/
def leafOf (s : Byte) : NodeIdx := ⟨s.toNat, Nat.lt_trans s.isLt (by decide)⟩

/-- The symbol of a leaf, `n[7:0]` (R28, 43_decoder.md R194; log 11 for a leaf above 255). -/
def symbolOf (n : NodeIdx) : Byte := BitVec.ofNat 8 n.val

/-- The 256 leaf indices, upward. -/
def leaves : List NodeIdx := symbols.map leafOf

/-- The number whose binary digits are `c`, first bit most significant (00_scope.md R9 `bitsToByte`, 41 R149
`zext_256`). -/
def bitsToNat (c : List Bool) : Nat := c.foldl (fun v b => 2 * v + b.toNat) 0

/-- `bitsToByte`: up to eight bits, right-justified in a byte (R9). -/
def bitsToByte (c : List Bool) : Byte := BitVec.ofNat 8 (bitsToNat c)

/-- The code table entry of the path `c` (R149): LEN = |c|, VAL = `c` right-justified. -/
def codeOfPath (c : List Bool) : Code :=
  { len := BitVec.ofNat 8 c.length, val := BitVec.ofNat 256 (bitsToNat c) }

/-- `code(s)`: the bits `VAL[LEN-1 : 0]`, most significant first (10_state.md R30, 30_encoding.md R113). -/
def codeBits (c : Code) : List Bool :=
  (List.range c.len.toNat).map fun i => c.val.getLsbD (c.len.toNat - 1 - i)

/-- Byte `k` of a header counter, `k` = 0 the most significant (20_memory.md R76, 30_encoding.md R111). -/
def counterByte (v : Word) (k : Nat) : Byte := v.extractLsb' (8 * (3 - k)) 8

/-- A counter with one more byte shifted in, the first byte most significant (43_decoder.md R191). -/
def shiftInByte (v : Word) (b : Byte) : Word := (v <<< 8) ||| b.setWidth 32

/-- `min(VFREQ + 1, 2^32)` (10_state.md R27). -/
def bumpVCount (v : VCount) : VCount :=
  if h : v.val < 4294967296 then ⟨v.val + 1, by omega⟩ else v

/-- `Σ_s LEN[s] × FREQ[s]`, exact (42_encoder.md R171, R172). -/
def weightedLength (codes : Vector Code 256) (freq : Vector Word 256) : Nat :=
  (symbols.map fun s => (getAt codes s).len.toNat * (getAt freq s).toNat).sum

/-- How many bits of the final body byte are valid (43_decoder.md R194): LAST_BITS, or 8 if it is 0. -/
def finalBits (lastBits : BitVec 3) : Nat := if lastBits = 0 then 8 else lastBits.toNat

/-- CODE_IDX.SYM, bits [7:0] (10_state.md R55). -/
def codeSym (codeIdx : BitVec 11) : Byte := codeIdx.setWidth 8

/-- CODE_IDX.WORD, bits [10:8] (R55). -/
def codeWord (codeIdx : BitVec 11) : Nat := (codeIdx.extractLsb' 8 3).toNat

end Sys2Proof.Machine
end

