-- ==== Sys2Proof/Machine/Ops.lean ====
section
/-! DEFINITION. The operations every command shares: the stream primitives (20_memory.md), acceptance, completion and the
abort (10_state.md R25, R41; 60_exceptions.md R226), the reset action (70_reset_and_hazards.md R250), and the order in
which the elements of a command run (30_encoding.md R106). -/

namespace Sys2Proof.Machine

/-! ### Streams -/

/-- `InRead()` (20 R72): the next byte, or none at end of stream, where nothing changes. -/
def inRead (s : State) : Option Byte × State :=
  match s.src[s.inPos]? with
  | some b => (some b, { s with inPos := s.inPos + 1 })
  | none => (none, s)

/-- The bytes `InRead` has still to deliver (20 R72). -/
def unread (s : State) : List Byte := s.src.drop s.inPos

/-- `Rewind()` (20 R73). -/
def rewindInput (s : State) : State := { s with inPos := 0 }

/-- `OutWrite(b)` (20 R74). -/
def outWrite (b : Byte) (s : State) : State :=
  { s with sink := s.sink ++ [b], outCount := s.outCount + 1 }

/-- `OutWrite` of each byte of a list, in order (20 R74). -/
def outWriteAll (bytes : List Byte) (s : State) : State :=
  { s with sink := s.sink ++ bytes, outCount := s.outCount + BitVec.ofNat 32 bytes.length }

/-! ### Free values -/

/-- Draws one unspecified word (10_state.md R38; log 6). -/
def drawWord (s : State) : Word × State := (Config.freeWord s.draws, { s with draws := s.draws + 1 })

/-- NEXT outside BUILD_TREE is unspecified (R31, 93 U4; log 8). -/
def releaseNext (s : State) : State :=
  { s with nextNode := Config.freeNext s.draws, draws := s.draws + 1 }

/-- PENDING and WALK outside DECODE_BODY are unspecified (93 U5, U6; log 8). -/
def releaseWalk (s : State) : State :=
  { s with pending := Config.freePending s.draws, walk := Config.freeWalk s.draws, draws := s.draws + 1 }

/-! ### The elements of a command -/

/-- The primitives a command runs, MSTEP 0 upward (30 R106). -/
def expansion : Instr → List Instr
  | .encode => [.rewind, .count, .rewind, .buildTree, .deriveCodes, .writeHeader, .encodeBody]
  | .decode => [.rewind, .readHeader, .buildTree, .decodeBody, .verify]
  | i => [i]

/-- PHASE when a primitive starts. RESET has no micro-step (40 R131) and a macro is none of its own elements. -/
def startPhase : Instr → Phase
  | .nop => .nop
  | .rewind => .rewind
  | .count => .countClear
  | .buildTree => .buildInit
  | .deriveCodes => .deriveCheck
  | .writeHeader => .headerCheck
  | .encodeBody => .packCheck
  | .readHeader => .readCounter 0 0
  | .decodeBody => .walkCheck
  | .verify => .verifyCheck
  | .reset | .encode | .decode => .idle

/-- The sequencer position at the start of element `e` (R23). -/
def enterElement (e : Instr) (s : State) : State :=
  { s with curOp := opcodeOf e, phase := startPhase e }

/-! ### Acceptance, completion, abort -/

/-- Acceptance of command `i` (10_state.md R41). -/
def accept (i : Instr) (s : State) : State :=
  enterElement ((expansion i).headD i)
    { s with
      busy := true, done := false, err := false, errCause := .none, errOp := 0, errInfo := 0
      outCount := 0, issuedOp := opcodeOf i, mstep := 0 }

/-- Completion of a command (R25). -/
def complete (s : State) : State :=
  { s with done := true, busy := false, issuedOp := 0, curOp := 0, mstep := 0, phase := .idle }

/-- The elements of the running command that come after the present one. -/
def laterElements (s : State) : List Instr :=
  match instrOfOpcode s.issuedOp with
  | some i => (expansion i).drop (s.mstep.toNat + 1)
  | none => []

/-- `complete` of an element: the next element of the macro starts, or the command completes (30 R106, R25). -/
def finishElement (s : State) : State :=
  match laterElements s with
  | e :: _ => enterElement e { s with mstep := s.mstep + 1 }
  | [] => complete s

/-- TAKING AN ERROR: `raise cause(info)` in the running primitive (60 R226). ERR_CAUSE.OP is CUR_OP, the primitive and
not the macro; the hidden datapath state is dropped; everything else stays. -/
def abort (cause : Cause) (info : Word) (s : State) : State :=
  { s with
    errCause := cause, errOp := s.curOp, errInfo := info, err := true, busy := false
    issuedOp := 0, curOp := 0, mstep := 0, phase := .idle
    q := [], acc := [], pendingValid := false }

/-- ILLEGAL_COMMAND, raised by the CMD write of `w` while idle (60 R228). -/
def illegalCommand (w : Word) (s : State) : State :=
  { s with
    done := false, err := true, errCause := .illegalCommand, errOp := w.setWidth 8, errInfo := w }

/-- A host write dropped because BUSY = 1 (10_state.md R38, R41; 60 R224). -/
def dropWrite (s : State) : State := { s with overrun := true }

/-! ### Reset -/

/-- The NODE arena after a reset, unspecified (R64, 93 U1; log 5). -/
def freeArena (k : Nat) : Vector Node 511 :=
  Vector.ofFn fun n =>
    { weight := Config.freeWeight k n, leaf := Config.freeLeaf k n
      left := Config.freeLeft k n, right := Config.freeRight k n }

/-- The code table after a reset, unspecified (R64, 93 U3; log 5). -/
def freeCodes (k : Nat) : Vector Code 256 :=
  Vector.ofFn fun n => { len := Config.freeLen k n, val := Config.freeVal k n }

/-- The reset action (70 R250): every piece of block state takes its value of R64, what R64 leaves unspecified is drawn
afresh (log 5), and SRC, SINK and the rest of the host stay. -/
def resetAction (s : State) : State :=
  { State.reset with
    nodes := freeArena s.draws, root := Config.freeRoot s.draws, codes := freeCodes s.draws
    nextNode := Config.freeNext s.draws, pending := Config.freePending s.draws
    walk := Config.freeWalk s.draws
    src := s.src, sink := s.sink, script := s.script, reads := s.reads, draws := s.draws + 1 }

/-! ### Running -/

/-- Goes on from a next state; a fault or a refusal stays. -/
def andThen (r : Result) (k : State → Result) : Result :=
  match r with
  | .next s => k s
  | .fault f => .fault f
  | .refused q => .refused q

/-- A prerequisite check (30 R107, 60 R229): SEQUENCE with the missing flag's bit, or `k`. -/
def require (flag : Bool) (missing : Word) (k : State → Result) (s : State) : Result :=
  if flag then k s else .next (abort .sequence missing s)

/-- The elements of a command one after another, while none has ended the command by an abort (30 R106, 60 R226). -/
def runElements : List (State → Result) → State → Result
  | [], s => .next s
  | body :: rest, s => andThen (body s) fun t => if t.busy then runElements rest t else .next t

/-- A CMD write of a legal word other than RESET, followed to the end of the command's run with no host move between
(10_state.md R41, 20 R94; log 1). While BUSY = 1 the write is dropped. -/
def issue (i : Instr) (bodies : List (State → Result)) (s : State) : Result :=
  if s.busy then .next (dropWrite s) else runElements bodies (accept i s)

end Sys2Proof.Machine
end

