-- ==== Sys2Proof/Machine/Control.lean ====
section
/-! DEFINITION. The control commands NOP, RESET and REWIND (40_control.md). -/

namespace Sys2Proof.Machine

/-- NOP's one micro-step (R130). -/
def nopBody (s : State) : Result := .next (finishElement s)

/-- REWIND's one micro-step (R132). -/
def rewindBody (s : State) : Result := .next (finishElement (rewindInput s))

/-- NOP (R130). -/
def execNop (s : State) : Result := issue .nop [nopBody] s

/-- RESET (R131): at the CMD write itself, whether BUSY is 0 or 1; never dropped, never raises. -/
def execReset (s : State) : Result := .next (resetAction s)

/-- REWIND (R132). -/
def execRewind (s : State) : Result := issue .rewind [rewindBody] s

end Sys2Proof.Machine
end

