-- ==== Sys2Proof/Machine/TreeBuilder.lean ====
section
/-! DEFINITION. The tree builder: COUNT, BUILD_TREE, DERIVE_CODES (41_tree_builder.md). Each micro-step is a function of
its own; the sequencer (Sequencer.lean) takes them one at a time, and the command's body here runs them to the end. -/

namespace Sys2Proof.Machine

/-! ### COUNT (R141) -/

/-- Micro-step 0: the flags, FREQ and TOTAL. -/
def countClear (s : State) : State :=
  { clearAllValid s with freq := Vector.replicate 256 0, total := 0 }

/-- One byte that InRead has delivered: counted, or INPUT_TOO_LONG (R141, R142). -/
def countByte (b : Byte) (s : State) : State :=
  if s.total = Config.maxCountBytes then abort .inputTooLong (b.setWidth 32) s
  else { s with freq := setAt s.freq b (getAt s.freq b + 1), total := s.total + 1 }

/-- The loop over the bytes still unread. -/
def countLoop : List Byte → State → State
  | [], s => finishElement s
  | b :: rest, s =>
    let t := countByte b { s with inPos := s.inPos + 1 }
    if t.busy then countLoop rest t else t

/-- COUNT from its first micro-step to its end. -/
def countBody (s : State) : Result :=
  let t := countClear s
  .next (countLoop (unread t) t)

/-! ### BUILD_TREE (R144, R145) -/

/-- The queue's key order: smaller weight first, then smaller index (R144). -/
def keyLt (nodes : Vector Node 511) (a b : NodeIdx) : Bool :=
  nodes[a].weight.toNat < nodes[b].weight.toNat
    || (nodes[a].weight == nodes[b].weight && decide (a.val < b.val))

/-- The element with the least key among `m` and a list (R11 `argmin`). -/
def argmin (nodes : Vector Node 511) (m : NodeIdx) (q : List NodeIdx) : NodeIdx :=
  q.foldl (fun best n => if keyLt nodes n best then n else best) m

/-- Pops the node with the least key; none from an empty queue. -/
def popMin (nodes : Vector Node 511) : List NodeIdx → Option (NodeIdx × List NodeIdx)
  | [] => none
  | n :: q =>
    let m := argmin nodes n q
    some (m, (n :: q).erase m)

/-- The leaf node of a symbol (R145, micro-step 0). -/
def leafNode (w : Word) : Node := { weight := w, leaf := true, left := 0, right := 0 }

/-- Nodes 0 to 255 become the leaves; the internal nodes are not touched. -/
def withLeaves (freq : Vector Word 256) (nodes : Vector Node 511) : Vector Node 511 :=
  symbols.foldl (fun t s => t.set (leafOf s) (leafNode (getAt freq s))) nodes

/-- Micro-step 0: flags, leaves, Q and NEXT. -/
def buildInit (s : State) : State :=
  { clearTreeValid s with nodes := withLeaves s.freq s.nodes, q := leaves, nextNode := 256 }

/-- The internal node over the first popped `a` and the second popped `b`; its weight wraps (R145, R147). -/
def mergeNode (nodes : Vector Node 511) (a b : NodeIdx) : Node :=
  { weight := nodes[a].weight + nodes[b].weight, leaf := false, left := a, right := b }

/-- What a merge reads and writes: the arena, Q and NEXT. -/
structure Forest where
  /-- the NODE arena -/
  nodes : Vector Node 511
  /-- Q -/
  q : List NodeIdx
  /-- NEXT -/
  nextNode : BitVec 10
deriving DecidableEq, Repr

/-- One merge (R145): the two least nodes of Q become the children of node NEXT, which joins Q. Without two nodes in Q
or a node NEXT in the arena nothing changes; no merge is made there (`canMerge`). -/
def mergeOnce (f : Forest) : Forest :=
  match popMin f.nodes f.q with
  | none => f
  | some (a, q₁) =>
    match popMin f.nodes q₁ with
    | none => f
    | some (b, q₂) =>
      if h : f.nextNode.toNat < 511 then
        let n : NodeIdx := ⟨f.nextNode.toNat, h⟩
        { nodes := f.nodes.set n (mergeNode f.nodes a b), q := q₂ ++ [n], nextNode := f.nextNode + 1 }
      else f

/-- `k` merges. -/
def mergeTimes : Nat → Forest → Forest
  | 0, f => f
  | k + 1, f => mergeTimes k (mergeOnce f)

/-- The forest of a state. -/
def forestOf (s : State) : Forest := { nodes := s.nodes, q := s.q, nextNode := s.nextNode }

/-- The state with another forest. -/
def withForest (f : Forest) (s : State) : State := { s with nodes := f.nodes, q := f.q, nextNode := f.nextNode }

/-- A merge can be made: two nodes in Q and a free node in the arena. Every run's merges find both (R146 (a)). -/
def canMerge (f : Forest) : Bool := 1 < f.q.length && f.nextNode.toNat < 511

/-- The final micro-step: ROOT is the single element of Q; Q empties; TREE_VALID (R145). NEXT is unspecified from here
on (R31). -/
def buildFinish (s : State) : State :=
  finishElement (releaseNext { s with root := s.q.headD s.root, q := [], treeValid := true })

/-- BUILD_TREE from its first micro-step to its end: `while |Q| > 1`, and each merge takes one node off Q. -/
def buildBody (s : State) : Result :=
  let t := buildInit s
  .next (buildFinish (withForest (mergeTimes (t.q.length - 1) (forestOf t)) t))

/-! ### DERIVE_CODES (R149) -/

/-- `visit(n, c)`: every leaf under `n` gets its path, left before right. None when a path is longer than the fuel. -/
def visit (nodes : Vector Node 511) : Nat → NodeIdx → List Bool → Vector Code 256 → Option (Vector Code 256)
  | 0, n, c, t => if nodes[n].leaf then some (setAt t (symbolOf n) (codeOfPath c)) else none
  | fuel + 1, n, c, t =>
    if nodes[n].leaf then some (setAt t (symbolOf n) (codeOfPath c))
    else
      match visit nodes fuel nodes[n].left (c ++ [false]) t with
      | none => none
      | some t' => visit nodes fuel nodes[n].right (c ++ [true]) t'

/-- From a subtree down to its leftmost leaf; the right subtrees passed go on the path stack. -/
def descend (nodes : Vector Node 511) :
    Nat → NodeIdx → List Bool → List (NodeIdx × List Bool) → Option (NodeIdx × List Bool × List (NodeIdx × List Bool))
  | 0, n, c, stack => if nodes[n].leaf then some (n, c, stack) else none
  | fuel + 1, n, c, stack =>
    if nodes[n].leaf then some (n, c, stack)
    else descend nodes fuel nodes[n].left (c ++ [false]) ((nodes[n].right, c ++ [true]) :: stack)

/-- The final micro-step: CODES_VALID (R149). -/
def deriveFinish (s : State) : State := finishElement { s with codesValid := true }

/-- One leaf's micro-step, or the final one when the path stack is empty. -/
def deriveVisit (stack : List (NodeIdx × List Bool)) (s : State) : Result :=
  match stack with
  | [] => .next (deriveFinish s)
  | (n, c) :: rest =>
    match descend s.nodes (Config.maxCodeLen - c.length) n c rest with
    | none => .fault .pathTooDeep
    | some (m, path, rest') =>
      .next { s with
        codes := setAt s.codes (symbolOf m) (codeOfPath path)
        phase := .deriveVisit rest' }

/-- DERIVE_CODES from its first micro-step to its end. -/
def deriveBody (s : State) : Result :=
  require s.treeValid treeValidBit
    (fun t =>
      match visit t.nodes Config.maxCodeLen t.root [] t.codes with
      | some codes => .next (deriveFinish { t with codes := codes })
      | none => .fault .pathTooDeep) s

/-! ### The commands -/

/-- COUNT (R141). -/
def execCount (s : State) : Result := issue .count [countBody] s

/-- BUILD_TREE (R145). -/
def execBuildTree (s : State) : Result := issue .buildTree [buildBody] s

/-- DERIVE_CODES (R149). -/
def execDeriveCodes (s : State) : Result := issue .deriveCodes [deriveBody] s

end Sys2Proof.Machine
end

