-- ==== Sys2Proof/Machine/Decoder.lean ====
section
/-! DEFINITION. The bit-unpacker decoder: READ_HEADER, DECODE_BODY, VERIFY and the macro DECODE (43_decoder.md). -/

namespace Sys2Proof.Machine

/-! ### READ_HEADER (R191) -/

/-- Header byte `n` has arrived and `v` holds the earlier bytes of its counter: FREQ is written with the fourth
(R192). -/
def storeCounter (n : Nat) (v : Word) (s : State) : State :=
  if n % 4 = 3 then { s with freq := setAt s.freq (BitVec.ofNat 8 (n / 4)) v } else s

/-- What the next header byte continues: nothing after a fourth byte. -/
def carryCounter (n : Nat) (v : Word) : Word := if n % 4 = 3 then 0 else v

/-- The loop over header bytes `n` to 1023, `k` of them; then the `last_bits` byte. -/
def readHeaderLoop : Nat → Nat → Word → State → State
  | 0, _, _, s =>
    match inRead s with
    | (none, t) => abort .lastBitsAbsent 1024 t
    | (some b, t) =>
      if b.toNat > Config.lastBitsMax then abort .lastBitsRange (b.setWidth 32) t
      else finishElement { t with lastBits := b.setWidth 3 }
  | k + 1, n, v, s =>
    match inRead s with
    | (none, t) => abort .headerTruncated (BitVec.ofNat 32 n) t
    | (some b, t) =>
      let v' := shiftInByte v b
      readHeaderLoop k (n + 1) (carryCounter n v') (storeCounter n v' t)

/-- READ_HEADER from its first micro-step, which clears the flags, to its end. -/
def readHeaderBody (s : State) : Result :=
  .next (readHeaderLoop Config.headerBytes 0 0 (clearAllValid s))

/-! ### DECODE_BODY (R194) -/

/-- The clearing micro-step. -/
def walkClear (s : State) : State :=
  { s with
    decDone := false, trailPartial := false, vfreq := Vector.replicate 256 0
    walk := s.root, pendingValid := false }

/-- The walk reaches leaf `n`: its symbol is emitted and counted, and the walk returns to ROOT. -/
def emitSymbol (n : NodeIdx) (s : State) : State :=
  let sym := symbolOf n
  let t := outWrite sym s
  { t with vfreq := setAt t.vfreq sym (bumpVCount (getAt t.vfreq sym)), walk := t.root }

/-- One bit of the walk, or WALK_OFF_TREE (R196). -/
def walkBit (bit : Bool) (s : State) : State :=
  if s.nodes[s.walk].leaf then
    releaseWalk (abort .walkOffTree (BitVec.ofNat 32 s.walk.val) s)
  else
    let n := if bit then s.nodes[s.walk].right else s.nodes[s.walk].left
    if s.nodes[n].leaf then emitSymbol n s else { s with walk := n }

/-- `WalkBits(p, k)`: bits `k - 1` down to 0 of PENDING. -/
def walkByte : Nat → State → State
  | 0, s => s
  | k + 1, s =>
    let t := walkBit (s.pending.getLsbD k) s
    if t.busy then walkByte k t else t

/-- The byte just read becomes PENDING. -/
def holdByte (b : Byte) (s : State) : State := { s with pending := b, pendingValid := true }

/-- The final bookkeeping: TRAIL_PARTIAL, DEC_DONE (R194, R195). PENDING and WALK are unspecified from here on. -/
def walkFinish (s : State) : State :=
  finishElement
    (releaseWalk { s with trailPartial := decide (s.walk ≠ s.root), decDone := true, pendingValid := false })

/-- End of stream: PENDING is the final byte (R194). -/
def walkEnd (s : State) : State :=
  if s.pendingValid then
    let t := walkByte (finalBits s.lastBits) s
    if t.busy then walkFinish t else t
  else walkFinish s

/-- The loop over the bytes still unread: each byte's arrival releases the one before it. -/
def walkLoop : List Byte → State → State
  | [], s => walkEnd s
  | b :: rest, s =>
    let t := { s with inPos := s.inPos + 1 }
    let u := if t.pendingValid then walkByte 8 t else t
    if u.busy then walkLoop rest (holdByte b u) else u

/-- DECODE_BODY from its first micro-step to its end. -/
def decodeBodyBody (s : State) : Result :=
  require s.treeValid treeValidBit (fun t => .next (walkLoop (unread t) (walkClear t))) s

/-! ### VERIFY (R197) -/

/-- VFREQ[s] = FREQ[s], compared as integers (10_state.md R27). -/
def countsAgree (sym : Byte) (s : State) : Bool := (getAt s.vfreq sym).val == (getAt s.freq sym).toNat

/-- CHECKSUM_MISMATCH at symbol `sym`. -/
def mismatch (sym : Byte) (s : State) : State := abort .checksumMismatch (sym.setWidth 32) s

/-- The comparisons of the listed symbols, in order. -/
def verifyLoop : List Byte → State → State
  | [], s => finishElement s
  | sym :: rest, s => if countsAgree sym s then verifyLoop rest s else mismatch sym s

/-- VERIFY from its first micro-step to its end. -/
def verifyBody (s : State) : Result :=
  require s.decDone decDoneBit (fun t => .next (verifyLoop symbols t)) s

/-! ### The commands -/

/-- READ_HEADER (R191). -/
def execReadHeader (s : State) : Result := issue .readHeader [readHeaderBody] s

/-- DECODE_BODY (R194). -/
def execDecodeBody (s : State) : Result := issue .decodeBody [decodeBodyBody] s

/-- VERIFY (R197). -/
def execVerify (s : State) : Result := issue .verify [verifyBody] s

/-- DECODE (R199). -/
def execDecode (s : State) : Result :=
  issue .decode [rewindBody, readHeaderBody, buildBody, decodeBodyBody, verifyBody] s

end Sys2Proof.Machine
end

