-- ==== Sys2Proof/Machine/Encoder.lean ====
section
/-! DEFINITION. The bit-packer encoder: WRITE_HEADER, ENCODE_BODY and the macro ENCODE (42_encoder.md). -/

namespace Sys2Proof.Machine

/-! ### WRITE_HEADER (R171) -/

/-- The four bytes of a counter, most significant first. -/
def counterBytes (v : Word) : List Byte := [counterByte v 0, counterByte v 1, counterByte v 2, counterByte v 3]

/-- The 1024 header bytes: the counters in symbol order (R171, R173). -/
def headerBytesOf (freq : Vector Word 256) : List Byte := symbols.flatMap fun s => counterBytes (getAt freq s)

/-- Byte `n` of the header (30_encoding.md R111): counter `n / 4`, byte `n mod 4` of it. -/
def headerByteAt (freq : Vector Word 256) (n : Nat) : Byte :=
  counterByte (getAt freq (BitVec.ofNat 8 (n / 4))) (n % 4)

/-- The sum's micro-step: LAST_BITS <- t, where `t` is the sum mod 8 (R171, R172). -/
def headerSum (s : State) : State :=
  { s with lastBits := BitVec.ofNat 3 (weightedLength s.codes s.freq) }

/-- The last micro-step: the `last_bits` byte. -/
def headerLast (s : State) : State := finishElement (outWrite (s.lastBits.setWidth 8) s)

/-- WRITE_HEADER from its first micro-step to its end. -/
def writeHeaderBody (s : State) : Result :=
  require s.codesValid codesValidBit (fun t => .next (headerLast (headerSum (outWriteAll (headerBytesOf t.freq) t)))) s

/-! ### ENCODE_BODY (R174) -/

/-- The code of one byte joins ACC, first code bit first. -/
def packByte (b : Byte) (s : State) : State :=
  { s with acc := s.acc ++ codeBits (getAt s.codes b) }

/-- One whole byte leaves the front of ACC; ACC[0] becomes bit 7. -/
def emitGroup (s : State) : State :=
  outWrite (bitsToByte (s.acc.take 8)) { s with acc := s.acc.drop 8 }

/-- `k` whole bytes. -/
def emitGroups : Nat → State → State
  | 0, s => s
  | k + 1, s => emitGroups k (emitGroup s)

/-- The final partial byte, right-justified. -/
def packFlush (s : State) : State :=
  finishElement { outWrite (bitsToByte s.acc) s with acc := [] }

/-- End of stream: the final partial byte if any bit remains. -/
def packEnd (s : State) : State :=
  if s.acc.isEmpty then finishElement s else packFlush s

/-- The loop over the bytes still unread. -/
def packLoop : List Byte → State → State
  | [], s => packEnd s
  | b :: rest, s =>
    let t := packByte b { s with inPos := s.inPos + 1 }
    packLoop rest (emitGroups (t.acc.length / 8) t)

/-- ENCODE_BODY from its first micro-step to its end. -/
def encodeBodyBody (s : State) : Result :=
  require s.codesValid codesValidBit (fun t => .next (packLoop (unread t) { t with acc := [] })) s

/-! ### The commands -/

/-- WRITE_HEADER (R171). -/
def execWriteHeader (s : State) : Result := issue .writeHeader [writeHeaderBody] s

/-- ENCODE_BODY (R174). -/
def execEncodeBody (s : State) : Result := issue .encodeBody [encodeBodyBody] s

/-- ENCODE (R177). -/
def execEncode (s : State) : Result :=
  issue .encode
    [rewindBody, countBody, rewindBody, buildBody, deriveBody, writeHeaderBody, encodeBodyBody] s

end Sys2Proof.Machine
end

