-- ==== Sys2Proof/Machine/Dispatch.lean ====
section
/-! DEFINITION. One arm for each command (30_encoding.md R102): `exec i s` is the host's CMD write of `i`'s word at
`s` and, where it is accepted, the command's whole run (20_memory.md R94) with no host move between (log 1). -/

namespace Sys2Proof.Machine

def exec (i : Instr) (s : State) : Host.Outcome State Fault Refusal :=
  match i with
  | .nop => Sys2Proof.Machine.execNop s
  | .reset => Sys2Proof.Machine.execReset s
  | .rewind => Sys2Proof.Machine.execRewind s
  | .count => Sys2Proof.Machine.execCount s
  | .buildTree => Sys2Proof.Machine.execBuildTree s
  | .deriveCodes => Sys2Proof.Machine.execDeriveCodes s
  | .writeHeader => Sys2Proof.Machine.execWriteHeader s
  | .encodeBody => Sys2Proof.Machine.execEncodeBody s
  | .encode => Sys2Proof.Machine.execEncode s
  | .readHeader => Sys2Proof.Machine.execReadHeader s
  | .decodeBody => Sys2Proof.Machine.execDecodeBody s
  | .verify => Sys2Proof.Machine.execVerify s
  | .decode => Sys2Proof.Machine.execDecode s

end Sys2Proof.Machine
end

