-- ==== Sys2Proof/Machine/Sequencer.lean ====
section
/-! DEFINITION. The sequencer: one micro-step (10_state.md R24), as the host's moves may fall between any two of them
(20_memory.md R86). The micro-steps are those counted in 70_reset_and_hazards.md R262. -/

namespace Sys2Proof.Machine

/-- Moves within the running primitive. -/
def goTo (p : Phase) (s : State) : State := { s with phase := p }

/-- COUNT's read (R141). -/
def stepCountRead (s : State) : State :=
  match inRead s with
  | (none, t) => finishElement t
  | (some b, t) => countByte b t

/-- BUILD_TREE's merge while |Q| > 1, then its final micro-step (R145). -/
def stepBuildMerge (s : State) : Result :=
  if s.q.length = 1 then .next (buildFinish s)
  else if canMerge (forestOf s) then .next (withForest (mergeOnce (forestOf s)) s)
  else .fault .queueBroken

/-- WRITE_HEADER's header byte `n` (R171). -/
def stepHeaderByte (n : Nat) (s : State) : State :=
  goTo (if n + 1 < Config.headerBytes then .headerByte (n + 1) else .headerSum)
    (outWrite (headerByteAt s.freq n) s)

/-- Where ENCODE_BODY goes after ACC has changed (R174): it drains whole bytes before it reads. -/
def packNext (s : State) : State := goTo (if 8 ≤ s.acc.length then .packEmit else .packRead) s

/-- ENCODE_BODY's read (R174). -/
def stepPackRead (s : State) : State :=
  match inRead s with
  | (none, t) => if t.acc.isEmpty then finishElement t else goTo .packFlush t
  | (some b, t) => packNext (packByte b t)

/-- READ_HEADER's header byte `n` (R191); the flags are cleared with the first. -/
def stepReadCounter (n : Nat) (v : Word) (s : State) : State :=
  match inRead (if n = 0 then clearAllValid s else s) with
  | (none, t) => abort .headerTruncated (BitVec.ofNat 32 n) t
  | (some b, t) =>
    let v' := shiftInByte v b
    goTo (if n + 1 < Config.headerBytes then .readCounter (n + 1) (carryCounter n v') else .readLast)
      (storeCounter n v' t)

/-- READ_HEADER's `last_bits` byte (R191). -/
def stepReadLast (s : State) : State := readHeaderLoop 0 0 0 s

/-- DECODE_BODY's read (R194). -/
def stepWalkRead (s : State) : State :=
  match inRead s with
  | (none, t) =>
    if t.pendingValid then goTo (.walkBits (finalBits t.lastBits) none) t else walkFinish t
  | (some b, t) =>
    if t.pendingValid then goTo (.walkBits 8 (some b)) t else goTo .walkRead (holdByte b t)

/-- What follows the last bit of PENDING: the held byte becomes PENDING, or the primitive ends (R194). -/
def walkByteDone (held : Option Byte) (s : State) : State :=
  match held with
  | some b => goTo .walkRead (holdByte b s)
  | none => walkFinish s

/-- DECODE_BODY's walk of one bit (R194). -/
def stepWalkBits (left : Nat) (held : Option Byte) (s : State) : State :=
  match left with
  | 0 => walkByteDone held s
  | k + 1 =>
    let t := walkBit (s.pending.getLsbD k) s
    if t.busy then
      match k with
      | 0 => walkByteDone held t
      | j + 1 => goTo (.walkBits (j + 1) held) t
    else t

/-- VERIFY's comparison of one symbol (R197). -/
def stepVerifyAt (sym : Byte) (s : State) : State :=
  if countsAgree sym s then
    if sym = 0xFF then finishElement s else goTo (.verifyAt (sym + 1)) s
  else mismatch sym s

/-- One micro-step of the running command. -/
def runningStep (s : State) : Result :=
  match s.phase with
  | .idle => .fault .noPosition
  | .nop => nopBody s
  | .rewind => rewindBody s
  | .countClear => .next (goTo .countRead (countClear s))
  | .countRead => .next (stepCountRead s)
  | .buildInit => .next (goTo .buildMerge (buildInit s))
  | .buildMerge => stepBuildMerge s
  | .deriveCheck => require s.treeValid treeValidBit (fun t => .next (goTo (.deriveVisit [(t.root, [])]) t)) s
  | .deriveVisit stack => deriveVisit stack s
  | .headerCheck => require s.codesValid codesValidBit (fun t => .next (goTo (.headerByte 0) t)) s
  | .headerByte n => .next (stepHeaderByte n s)
  | .headerSum => .next (goTo .headerLast (headerSum s))
  | .headerLast => .next (headerLast s)
  | .packCheck => require s.codesValid codesValidBit (fun t => .next (goTo .packRead { t with acc := [] })) s
  | .packRead => .next (stepPackRead s)
  | .packEmit => .next (packNext (emitGroup s))
  | .packFlush => .next (packFlush s)
  | .readCounter n v => .next (stepReadCounter n v s)
  | .readLast => .next (stepReadLast s)
  | .walkCheck => require s.treeValid treeValidBit (fun t => .next (goTo .walkClear t)) s
  | .walkClear => .next (goTo .walkRead (walkClear s))
  | .walkRead => .next (stepWalkRead s)
  | .walkBits left held => .next (stepWalkBits left held s)
  | .verifyCheck => require s.decDone decDoneBit (fun t => .next (goTo (.verifyAt 0) t)) s
  | .verifyAt sym => .next (stepVerifyAt sym s)

/-- The sequencer's turn: a micro-step while a command runs, nothing while idle (70 R251). -/
def microStep (s : State) : Result := if s.busy then runningStep s else .next s

/-- `k` micro-steps with no host move between. -/
def microSteps : Nat → State → Result
  | 0, s => .next s
  | k + 1, s => andThen (microStep s) (microSteps k)

end Sys2Proof.Machine
end

