-- ==== Sys2Proof/Machine/Window.lean ====
section
/-! DEFINITION. The host register window (10_state.md R37 to R61) and the host's access to it. -/

namespace Sys2Proof.Machine

/-- The registers of the window (R37). -/
inductive Reg where
  | id | ctrl | cmd | status | errCause | errInfo | lastBits | total | inCount | outCount
  | freqIdx | freqData | vfreqData | vfreqFlags | codeIdx | codeLen | codeVal
  | nodeIdx | nodeWeight | nodeLink | root
deriving DecidableEq, Repr

/-- The register map (R37). -/
def regMap : List (Nat × Reg) :=
  [(0x00, .id), (0x04, .ctrl), (0x08, .cmd), (0x0C, .status), (0x10, .errCause), (0x14, .errInfo),
   (0x18, .lastBits), (0x1C, .total), (0x20, .inCount), (0x24, .outCount), (0x28, .freqIdx),
   (0x2C, .freqData), (0x30, .vfreqData), (0x34, .vfreqFlags), (0x38, .codeIdx), (0x3C, .codeLen),
   (0x40, .codeVal), (0x44, .nodeIdx), (0x48, .nodeWeight), (0x4C, .nodeLink), (0x50, .root)]

/-- The register at a byte offset; none at a reserved offset. -/
def regAt (off : Nat) : Option Reg := (regMap.find? fun row => row.1 == off).map Prod.snd

/-- The accesses the window supports (R38, 20_memory.md R80): aligned, inside the 256 bytes. -/
def supportedOffset (off : Nat) : Bool := off % 4 == 0 && off < 256

/-- The offset of a bus address in the window at base `huffBase` (20 R83; `HUFF_BASE` is the caller's, log 16). -/
def windowOffset (huffBase address : Nat) : Option Nat :=
  if huffBase ≤ address ∧ address < huffBase + 256 then some (address - huffBase) else none

/-- A defined value, with nothing changed (R38: no read has a side effect). -/
def readable (w : Word) (s : State) : Word × State := (w, s)

/-- A read that returns `w` where `known` holds and any value elsewhere (R38, R56 to R61; log 6). -/
def guarded (known : Bool) (w : Word) (s : State) : Word × State := if known then (w, s) else drawWord s

/-- NODE_LINK's word for a node (R60). -/
def linkWord (n : Node) : Word :=
  if n.leaf then 0x80000000
  else (BitVec.ofNat 32 n.right.val <<< 16) ||| BitVec.ofNat 32 n.left.val

/-- A read of NODE_WEIGHT or NODE_LINK (R58 to R60): index 511 reads 0 while idle (log 9). -/
def readNode (view : Node → Word) (s : State) : Word × State :=
  if s.busy then drawWord s
  else if h : s.nodeIdx.toNat < 511 then guarded s.treeValid (view (s.nodes[s.nodeIdx.toNat]'h)) s
  else readable 0 s

/-- The value a read of a register returns, and the state after it, which differs only in the draws (R38). -/
def readReg (r : Reg) (s : State) : Word × State :=
  match r with
  | .id => readable Config.idWord s
  | .ctrl => readable ((0 : BitVec 31) ++ BitVec.ofBool s.ie) s
  | .cmd => readable 0 s
  | .status => readable (statusWord s) s
  | .errCause => readable (errCauseWord s) s
  | .errInfo => readable s.errInfo s
  | .lastBits => readable (s.lastBits.setWidth 32) s
  | .total => readable s.total s
  | .inCount => readable (BitVec.ofNat 32 s.inPos) s
  | .outCount => readable s.outCount s
  | .freqIdx => readable (s.freqIdx.setWidth 32) s
  | .freqData => guarded (!s.busy) (getAt s.freq s.freqIdx) s
  | .vfreqData => guarded (!s.busy) (BitVec.ofNat 32 (min (getAt s.vfreq s.freqIdx).val 0xFFFFFFFF)) s
  | .vfreqFlags => guarded (!s.busy) (if (getAt s.vfreq s.freqIdx).val = 4294967296 then 1 else 0) s
  | .codeIdx => readable (s.codeIdx.setWidth 32) s
  | .codeLen => guarded (!s.busy && s.codesValid) ((getAt s.codes (codeSym s.codeIdx)).len.setWidth 32) s
  | .codeVal =>
    guarded (!s.busy && s.codesValid)
      ((getAt s.codes (codeSym s.codeIdx)).val.extractLsb' (32 * codeWord s.codeIdx) 32) s
  | .nodeIdx => readable (s.nodeIdx.setWidth 32) s
  | .nodeWeight => readNode Node.weight s
  | .nodeLink => readNode linkWord s
  | .root => guarded (!s.busy && s.treeValid) (BitVec.ofNat 32 s.root.val) s

/-- A host read at a byte offset (R38): reserved offsets read 0; the host keeps what it read (log 12). -/
def hostRead (off : Nat) (s : State) : Result :=
  if supportedOffset off then
    let (w, t) := match regAt off with
      | some r => readReg r s
      | none => readable 0 s
    .next { t with reads := t.reads ++ [(off, w)] }
  else .refused .unsupportedAccess

/-- A host write of CMD (R41, 40_control.md R131, 60_exceptions.md R228). -/
def writeCmd (w : Word) (s : State) : State :=
  match decode w with
  | .ok .reset => resetAction s
  | .ok i => if s.busy then dropWrite s else accept i s
  | .error _ => if s.busy then dropWrite s else illegalCommand w s

/-- A host write that needs BUSY = 0 (R38). -/
def whileIdle (f : State → State) (s : State) : State := if s.busy then dropWrite s else f s

/-- A host write of a register (R38, R40 to R58); a write to a read-only register has no effect. -/
def writeReg (r : Reg) (v : Word) (s : State) : State :=
  match r with
  | .ctrl => whileIdle (fun t => { t with ie := v.getLsbD 0 }) s
  | .cmd => writeCmd v s
  | .status => clearStatus v s
  | .lastBits => whileIdle (fun t => { t with lastBits := v.setWidth 3 }) s
  | .freqIdx => whileIdle (fun t => { t with freqIdx := v.setWidth 8 }) s
  | .freqData => whileIdle (fun t => { clearTreeValid t with freq := setAt t.freq t.freqIdx v }) s
  | .codeIdx => whileIdle (fun t => { t with codeIdx := v.setWidth 11 }) s
  | .nodeIdx => whileIdle (fun t => { t with nodeIdx := v.setWidth 9 }) s
  | .id | .errCause | .errInfo | .total | .inCount | .outCount | .vfreqData | .vfreqFlags
  | .codeLen | .codeVal | .nodeWeight | .nodeLink | .root => s

/-- A host write at a byte offset (R38): reserved offsets ignore it. -/
def hostWrite (off : Nat) (v : Word) (s : State) : Result :=
  if supportedOffset off then
    .next (match regAt off with
      | some r => writeReg r v s
      | none => s)
  else .refused .unsupportedAccess

/-- The host attaches a source, only while idle (20_memory.md R71). -/
def hostAttach (bytes : List Byte) (s : State) : Result :=
  if s.busy then .refused .attachWhileBusy else .next { s with src := bytes, inPos := 0 }

end Sys2Proof.Machine
end

