-- ==== Sys2Proof/Machine/Moves.lean ====
section
/-! DEFINITION. What each move of the host does (20_memory.md R86; log 2). `Step.lean` only takes the next move off the
script. -/

namespace Sys2Proof.Machine

/-- The word of the move the script fetches is a command word: a legal one runs, any other is written to CMD, where it
raises ILLEGAL_COMMAND or is dropped (10_state.md R41; log 1). -/
def runCommand (w : Word) (s : State) : Result :=
  match decode w with
  | .ok i => exec i s
  | .error _ => .next (writeCmd w s)

/-- `wait` (30_encoding.md R108): while BUSY = 1 the sequencer takes a micro-step and the host waits on; at BUSY = 0 the
host's STATUS read ends the wait. -/
def hostWait (s : State) : Result :=
  if s.busy then andThen (microStep s) fun t => .next { t with script := .wait :: t.script }
  else hostRead 0x0C s

/-- One move, already taken off the script. -/
def hostMove (m : HostMove) (s : State) : Result :=
  match m with
  | .read off => hostRead off s
  | .write off v => hostWrite off v s
  | .attach bytes => hostAttach bytes s
  | .hardReset => .next (resetAction s)
  | .wait => hostWait s
  | .turn => microStep s
  | .command w => runCommand w s

/-- The next move of the script, taken; with no move left the sequencer has every turn. -/
def nextMove (s : State) : Result :=
  match s.script with
  | [] => microStep s
  | m :: rest => hostMove m { s with script := rest }

/-- The command word in the low `nbits` bits of `w`, put before the rest of the script (log 3). A word needs at most 32
bits (30_encoding.md R105). -/
def placeCommand (s : State) (nbits w : Nat) : State :=
  { s with script := .command (BitVec.ofNat 32 (w % 2 ^ nbits)) :: s.script }

end Sys2Proof.Machine
end

