-- ==== Sys2Proof/Machine/Step.lean ====
section
/-! DEFINITION. One step of the machine, and how a command word is placed where the next step takes it. -/

namespace Sys2Proof.Machine

/-- One step: the host's next move, or a micro-step of the sequencer where the script has none (20_memory.md R86). -/
def step (s : State) : Host.Outcome State Fault Refusal := nextMove s

/-- `s` with the command word `w` as the host's next move, to be written to CMD (10_state.md R41; log 3). -/
def State.withFetchWord (s : State) (nbits w : Nat) : State := placeCommand s nbits w

end Sys2Proof.Machine
end

