-- ==== Sys2Proof/Safety.lean ====
section
/-! DEFINITION. The terms the claims use: what a command leaves, the file format and the walk as functions on lists
(30_encoding.md Part B), the shape of a built tree (41_tree_builder.md R146), and the invariants every step keeps. -/

namespace Sys2Proof.Machine

/-! ### What a command leaves -/

/-- The state after a command that was accepted and completed and changed nothing else (10_state.md R41, R25). -/
def completed (s : State) : State :=
  { s with
    busy := false, done := true, err := false, errCause := .none, errOp := 0, errInfo := 0
    outCount := 0, issuedOp := 0, curOp := 0, mstep := 0, phase := .idle }

/-- The state after a command that was accepted and aborted by primitive `op` and changed nothing else
(R41, 60_exceptions.md R226). -/
def aborted (op : Byte) (cause : Cause) (info : Word) (s : State) : State :=
  { s with
    busy := false, done := false, err := true, errCause := cause, errOp := op, errInfo := info
    outCount := 0, issuedOp := 0, curOp := 0, mstep := 0, phase := .idle
    q := [], acc := [], pendingValid := false }

/-! ### Counts and the header -/

/-- How often each symbol occurs in `bytes` (41 R141, R143). -/
def countsOf (bytes : List Byte) : Vector Word 256 :=
  Vector.ofFn fun n => BitVec.ofNat 32 (bytes.count (BitVec.ofNat 8 n.val))

/-- The same counts as VFREQ holds them, saturated at 2^32 (10_state.md R27). -/
def vcountsOf (bytes : List Byte) : Vector VCount 256 :=
  Vector.ofFn fun n => ⟨min (bytes.count (BitVec.ofNat 8 n.val)) 4294967296, by omega⟩

/-- Header counter `n` of a file: bytes `4n` to `4n+3`, most significant first (20_memory.md R76). -/
def headerCounter (bytes : List Byte) (n : Nat) : Word :=
  bytes.getD (4 * n) 0 ++ bytes.getD (4 * n + 1) 0 ++ bytes.getD (4 * n + 2) 0 ++ bytes.getD (4 * n + 3) 0

/-- FREQ after the first `m` counters of a header have arrived (43 R191, R192). -/
def headerInto (bytes : List Byte) (m : Nat) (freq : Vector Word 256) : Vector Word 256 :=
  Vector.ofFn fun n => if n.val < m then headerCounter bytes n.val else freq[n]

/-! ### The body -/

/-- `code(S[0]) ++ code(S[1]) ++ ...` (30_encoding.md R114). -/
def bitstream (codes : Vector Code 256) (bytes : List Byte) : List Bool :=
  bytes.flatMap fun b => codeBits (getAt codes b)

/-- A bitstream packed into body bytes: whole bytes MSB first, the final partial byte right-justified
(20_memory.md R77, R78). -/
def packBits (bits : List Bool) : List Byte :=
  (List.range ((bits.length + 7) / 8)).map fun i => bitsToByte ((bits.drop (8 * i)).take 8)

/-- Bits `k - 1` down to 0 of a byte. -/
def lowBits (b : Byte) (k : Nat) : List Bool := (List.range k).map fun i => b.getLsbD (k - 1 - i)

/-- The bits of a body: eight of each byte but the last, and the low bits of the last (43 R190, R194). -/
def bodyBits (lastBits : BitVec 3) : List Byte → List Bool
  | [] => []
  | [b] => lowBits b (finalBits lastBits)
  | b :: c :: rest => lowBits b 8 ++ bodyBits lastBits (c :: rest)

/-- The child a bit leads to: left for 0, right for 1 (30_encoding.md R113, R115). -/
def childOf (nodes : Vector Node 511) (n : NodeIdx) (bit : Bool) : NodeIdx :=
  if bit then nodes[n].right else nodes[n].left

/-- The node a path leads to. -/
def follow (nodes : Vector Node 511) (n : NodeIdx) (path : List Bool) : NodeIdx :=
  path.foldl (childOf nodes) n

/-- The walk from node `w`: the symbols emitted and the node where it ends (30_encoding.md R115, 43 R194). -/
def decodeWalk (nodes : Vector Node 511) (root : NodeIdx) : NodeIdx → List Bool → List Byte × NodeIdx
  | w, [] => ([], w)
  | w, bit :: rest =>
    let n := childOf nodes w bit
    if nodes[n].leaf then
      let r := decodeWalk nodes root root rest
      (symbolOf n :: r.1, r.2)
    else decodeWalk nodes root n rest

/-! ### The whole file -/

/-- The arena BUILD_TREE builds from a frequency table (41 R145, R146 (f)). -/
def treeOf (freq : Vector Word 256) : Vector Node 511 :=
  (mergeTimes 255
    { nodes := withLeaves freq (Vector.replicate 511 (leafNode 0)), q := leaves, nextNode := 256 }).nodes

/-- The code table of a tree with root 510 (41 R149). -/
def codesOf (nodes : Vector Node 511) : Vector Code 256 :=
  (visit nodes Config.maxCodeLen 510 [] (Vector.replicate 256 ⟨0, 0⟩)).getD (Vector.replicate 256 ⟨0, 0⟩)

/-- The code table that belongs to the counts of `bytes`. -/
def codesFor (bytes : List Byte) : Vector Code 256 := codesOf (treeOf (countsOf bytes))

/-- The encoded file of `bytes` (30_encoding.md R110 to R114). -/
def fileOf (bytes : List Byte) : List Byte :=
  let bits := bitstream (codesFor bytes) bytes
  headerBytesOf (countsOf bytes) ++ [BitVec.ofNat 8 (bits.length % 8)] ++ packBits bits

/-! ### The shape of the forest and of the tree (41 R146) -/

/-- `p` is an internal node below index `hi` with child `m`. -/
def ParentIn (nodes : Vector Node 511) (hi : Nat) (p m : NodeIdx) : Prop :=
  256 ≤ p.val ∧ p.val < hi ∧ (nodes[p].left = m ∨ nodes[p].right = m)

/-- The leaves are leaves with their FREQ weight, and every internal node below `hi` has two different children below
it and their weights' sum (R145, R146 (b), R147). -/
def BuiltUpTo (freq : Vector Word 256) (nodes : Vector Node 511) (hi : Nat) : Prop :=
  (∀ sym : Byte, nodes[leafOf sym].leaf = true ∧ nodes[leafOf sym].weight = getAt freq sym) ∧
  ∀ n : NodeIdx, 256 ≤ n.val → n.val < hi →
    nodes[n].leaf = false ∧ nodes[n].left < n ∧ nodes[n].right < n ∧ nodes[n].left ≠ nodes[n].right ∧
      nodes[n].weight = nodes[nodes[n].left].weight + nodes[nodes[n].right].weight

/-- No node has two parents below `hi`. -/
def OneParent (nodes : Vector Node 511) (hi : Nat) : Prop :=
  ∀ m p p' : NodeIdx, ParentIn nodes hi p m → ParentIn nodes hi p' m → p = p'

/-- Between two merges: Q holds, in ascending order, exactly the nodes without a parent; each merge takes one node off
it (R145). -/
def ForestShape (freq : Vector Word 256) (f : Forest) : Prop :=
  256 ≤ f.nextNode.toNat ∧ f.nextNode.toNat ≤ 511 ∧ f.q.length + f.nextNode.toNat = 512 ∧ f.q.Pairwise (· < ·) ∧
  BuiltUpTo freq f.nodes f.nextNode.toNat ∧ OneParent f.nodes f.nextNode.toNat ∧
  ∀ m : NodeIdx, m ∈ f.q ↔ m.val < f.nextNode.toNat ∧ ¬ ∃ p, ParentIn f.nodes f.nextNode.toNat p m

/-- A full binary tree over the 256 leaves with root 510 (R146 (a) to (c)). -/
def TreeShape (freq : Vector Word 256) (nodes : Vector Node 511) : Prop :=
  BuiltUpTo freq nodes 511 ∧ OneParent nodes 511 ∧
  ∀ m : NodeIdx, m.val < 510 ↔ ∃ p, ParentIn nodes 511 p m

/-- `a` comes before `b` in the queue's order: smaller weight, or equal weights and smaller index (R144). -/
def KeyBefore (nodes : Vector Node 511) (a b : NodeIdx) : Prop :=
  nodes[a].weight.toNat < nodes[b].weight.toNat ∨ (nodes[a].weight = nodes[b].weight ∧ a < b)

/-- The code of every symbol leads from ROOT to its leaf and has 1 to 255 bits, with zeros above them
(10_state.md R30, 30_encoding.md R113, 41 R150). -/
def CodesFit (nodes : Vector Node 511) (codes : Vector Code 256) : Prop :=
  ∀ sym : Byte, 1 ≤ (getAt codes sym).len.toNat ∧
    (getAt codes sym).val.toNat < 2 ^ (getAt codes sym).len.toNat ∧
    follow nodes 510 (codeBits (getAt codes sym)) = leafOf sym

/-! ### The sequencer invariant -/

/-- The primitive a position belongs to. -/
def phaseElement : Phase → Option Instr
  | .idle => none
  | .nop => some .nop
  | .rewind => some .rewind
  | .countClear | .countRead => some .count
  | .buildInit | .buildMerge => some .buildTree
  | .deriveCheck | .deriveVisit _ => some .deriveCodes
  | .headerCheck | .headerByte _ | .headerSum | .headerLast => some .writeHeader
  | .packCheck | .packRead | .packEmit | .packFlush => some .encodeBody
  | .readCounter _ _ | .readLast => some .readHeader
  | .walkCheck | .walkClear | .walkRead | .walkBits _ _ => some .decodeBody
  | .verifyCheck | .verifyAt _ => some .verify

/-- ISSUED_OP is a command, CUR_OP is the element at MSTEP, and PHASE is a position of it (R23, 30_encoding.md R106). -/
def PositionOk (s : State) : Prop :=
  ∃ i e : Instr, s.issuedOp = opcodeOf i ∧ (expansion i)[s.mstep.toNat]? = some e ∧ s.curOp = opcodeOf e ∧
    phaseElement s.phase = some e

/-- The ranges of the position and of the hidden datapath state at it (R31 to R33; 42 R175). -/
def HiddenOk (s : State) : Prop :=
  match s.phase with
  | .buildMerge => s.acc = [] ∧ s.pendingValid = false
  | .headerByte n => n < 1024 ∧ s.q = [] ∧ s.acc = [] ∧ s.pendingValid = false
  | .readCounter n _ => n < 1024 ∧ s.q = [] ∧ s.acc = [] ∧ s.pendingValid = false
  | .packRead => s.acc.length ≤ 7 ∧ s.q = [] ∧ s.pendingValid = false
  | .packEmit => 8 ≤ s.acc.length ∧ s.acc.length ≤ 262 ∧ s.q = [] ∧ s.pendingValid = false
  | .packFlush => 1 ≤ s.acc.length ∧ s.acc.length ≤ 7 ∧ s.q = [] ∧ s.pendingValid = false
  | .walkRead => s.q = [] ∧ s.acc = []
  | .walkBits left _ => 1 ≤ left ∧ left ≤ 8 ∧ s.q = [] ∧ s.acc = [] ∧ s.pendingValid = true
  | _ => s.q = [] ∧ s.acc = [] ∧ s.pendingValid = false

/-- The sequencer and the error registers agree with each other, and no more bytes have been read than SRC has (R23,
R25, R31 to R33, R35, R42, R45). -/
def ControlInv (s : State) : Prop :=
  (s.busy = false → s.issuedOp = 0 ∧ s.curOp = 0 ∧ s.mstep = 0 ∧ s.phase = .idle) ∧
  (s.busy = true → s.done = false ∧ s.err = false ∧ s.errCause = .none ∧ PositionOk s) ∧
  HiddenOk s ∧ ¬(s.done = true ∧ s.err = true) ∧
  (s.errCause = .none → s.errOp = 0 ∧ s.errInfo = 0) ∧ s.inPos ≤ s.src.length

/-! ### The table invariant -/

/-- The validity flags tell the truth (R42, R63): TREE_VALID means the tree of the present FREQ, CODES_VALID needs it,
and at each position the flags are as the running primitive left them. -/
def TreeInv (s : State) : Prop :=
  (s.treeValid = true → s.root = 510 ∧ TreeShape s.freq s.nodes) ∧
  (s.codesValid = true → s.treeValid = true) ∧
  match s.phase with
  | .countRead | .readLast => s.treeValid = false
  | .readCounter n _ => 0 < n → s.treeValid = false
  | .buildMerge => s.treeValid = false ∧ ForestShape s.freq (forestOf s)
  | .deriveVisit stack =>
    s.treeValid = true ∧ ∀ e ∈ stack, follow s.nodes 510 e.2 = e.1 ∧ e.1.val + e.2.length ≤ 510
  | .headerByte _ | .headerSum | .headerLast | .packRead | .packEmit | .packFlush => s.codesValid = true
  | .walkClear => s.treeValid = true
  | .walkRead => s.treeValid = true ∧ s.nodes[s.walk].leaf = false
  | .walkBits _ _ => s.treeValid = true ∧ s.nodes[s.walk].leaf = false
  | _ => True

/-! ### What the host reads -/

/-- A host read at a byte offset returns `w` and changes nothing but the host's record of it (10_state.md R38). -/
def ReadsAs (off : Nat) (w : Word) (s : State) : Prop := hostRead off s = .next { s with reads := s.reads ++ [(off, w)] }

/-! ### What an unspecified value may not reach -/

/-- A state with everything the spec leaves unspecified made equal: the arena and ROOT while TREE_VALID = 0, the code
table while CODES_VALID = 0, NEXT, PENDING and WALK while idle (70_reset_and_hazards.md R252; 93 U1 to U6). -/
def visible (s : State) : State :=
  { s with
    nodes := if s.treeValid then s.nodes else State.reset.nodes
    root := if s.treeValid then s.root else State.reset.root
    codes := if s.codesValid then s.codes else State.reset.codes
    nextNode := State.reset.nextNode, pending := State.reset.pending, walk := State.reset.walk }

/-- Two results that agree in everything but unspecified values. -/
def SameVisible (r r' : Result) : Prop :=
  match r, r' with
  | .next t, .next t' => visible t = visible t'
  | .fault f, .fault f' => f = f'
  | .refused q, .refused q' => q = q'
  | _, _ => False

end Sys2Proof.Machine
end

