-- ==== Sys2Proof/Certificates/Slice0/Obligations.lean ====
section
/-! DEFINITION. The statements about HUFF256, from the spec's numbered rules. A result statement gives the whole next
state, so it is the command's frame as well: a field its equation does not name is the field of the state before. -/

open Sys2Proof Sys2Proof.Machine

/-! ### Encoding -/

/-- R102, R100: the words written out from the opcode map decode to their commands. -/
def Obligations.OpcodeMapDecodes : Prop :=
  [decode 0x00000000, decode 0x00000001, decode 0x00000002, decode 0x00000010, decode 0x00000011, decode 0x00000012,
    decode 0x00000020, decode 0x00000021, decode 0x0000002F, decode 0x00000030, decode 0x00000031, decode 0x00000032,
    decode 0x0000003F].map Except.toOption
  = [some Instr.nop, some .reset, some .rewind, some .count, some .buildTree, some .deriveCodes,
    some .writeHeader, some .encodeBody, some .encode, some .readHeader, some .decodeBody, some .verify, some .decode]

/-- Decoding an encoded command gives it back; a command has no operand, so this is one equation a command. -/
def Obligations.DecodeOfEncode : Prop :=
  ∀ i : Instr, decode (encode i) = .ok i

/-- R101, R104: a word decodes exactly when RSV = 0 and its opcode is not reserved, and then it is the word the encoder
gives, so no two commands share a word and no reserved encoding falls through. -/
def Obligations.DecodeAcceptsExactlyLegalWords : Prop :=
  ∀ w : Word, (wordWellFormed w = true ↔ ∃ i, decode w = .ok i) ∧ ∀ i, decode w = .ok i → encode i = w

/-! ### The step -/

/-- The step runs the decoded command: with a command word as the host's next move, the step is `exec` of the decoded
command at the state whose script has moved on, and nothing is added around it. An illegal word takes the CMD write. That
one move carries the whole run is the model's choice (log 1). -/
def Obligations.StepRunsDecodedCommand : Prop :=
  ∀ (s : State) (w : Word) (rest : List HostMove), s.script = .command w :: rest →
    (∀ i, decode w = .ok i → step s = exec i { s with script := rest }) ∧
    (∀ e, decode w = .error e → step s = .next (writeCmd w { s with script := rest }))

/-- A word placed by `withFetchWord` is what the next step runs, with the rest of the script untouched; the
placing stands for the host's CMD write (the model's choice, log 3). -/
def Obligations.PlacedWordRuns : Prop :=
  ∀ (s : State) (w : Nat) (i : Instr), w < 2 ^ 32 → decodeTableWord 32 w = some i →
    step (s.withFetchWord 32 w) = exec i s

/-- R86: between two host moves the sequencer takes micro-steps, one a turn, and a state with no move left gives the
sequencer every turn; R251: while idle the turn changes nothing. The script is the model's
(log 2). -/
def Obligations.SequencerTakesTurns : Prop :=
  ∀ s : State,
    (s.script = [] → step s = microStep s) ∧
    (∀ rest, s.script = .turn :: rest → step s = microStep { s with script := rest }) ∧
    (s.busy = false → microStep s = .next s) ∧
    (s.busy = true → microStep s = runningStep s)

/-! ### Acceptance, dropping, illegal words -/

/-- R41: a legal command written to CMD while idle is accepted. -/
def Obligations.CmdWriteAccepts : Prop :=
  ∀ (s : State) (i : Instr), s.busy = false → i ≠ .reset →
    ∃ t, hostWrite 0x08 (encode i) s = .next t ∧ t.busy = true ∧ t.done = false ∧ t.err = false ∧
      errCauseWord t = 0 ∧ t.errInfo = 0 ∧ t.outCount = 0 ∧ t.issuedOp = (encode i).setWidth 8 ∧ t.mstep = 0 ∧
      some t.curOp = ((expansion i).head?).map opcodeOf ∧
      t = { s with
        busy := true, done := false, err := false, errCause := .none, errOp := 0, errInfo := 0, outCount := 0
        issuedOp := t.issuedOp, mstep := 0, curOp := t.curOp, phase := t.phase }

/-- R228: an illegal word written while idle raises ILLEGAL_COMMAND at the write and changes nothing else; written while
BUSY = 1 it is dropped with OVERRUN and raises nothing. -/
def Obligations.IllegalWordRaises : Prop :=
  ∀ (s : State) (w : Word), wordWellFormed w = false →
    (s.busy = false → ∃ t, hostWrite 0x08 w s = .next t ∧
      t = { s with
        done := false, err := true, errCause := .illegalCommand, errOp := w.setWidth 8, errInfo := w } ∧
      errCauseWord t = ((w.setWidth 8).setWidth 32 <<< 8) ||| 0x10) ∧
    (s.busy = true → hostWrite 0x08 w s = .next { s with overrun := true })

/-- R258: while BUSY = 1 a write to CTRL, LAST_BITS, FREQ_IDX, FREQ_DATA, CODE_IDX or NODE_IDX, and a CMD write of any
word but RESET, is dropped and sets OVERRUN. -/
def Obligations.BusyWritesAreDropped : Prop :=
  ∀ (s : State) (v : Word), s.busy = true →
    (∀ off ∈ [0x04, 0x18, 0x28, 0x2C, 0x38, 0x44], hostWrite off v s = .next { s with overrun := true }) ∧
    (v ≠ 0x00000001 → hostWrite 0x08 v s = .next { s with overrun := true })

/-- R41: every command but RESET is dropped while BUSY = 1; `exec` does not wait for the run in progress (the model's
choice, log 1). -/
def Obligations.BusyCommandIsDropped : Prop :=
  ∀ (s : State) (i : Instr), s.busy = true → i ≠ .reset → exec i s = .next { s with overrun := true }

/-- R224: OVERRUN does not affect the running command: a micro-step with OVERRUN set is the same micro-step. -/
def Obligations.OverrunDoesNotAffectRun : Prop :=
  ∀ s : State, microStep { s with overrun := true } =
    andThen (microStep s) fun t => .next { t with overrun := true }

/-! ### The control commands -/

/-- R130: NOP completes and changes nothing but what acceptance and completion change. -/
def Obligations.NopCompletes : Prop :=
  ∀ s : State, s.busy = false → exec .nop s = .next (completed s)

/-- R132: REWIND sets IN_POS to 0 and completes. -/
def Obligations.RewindCompletes : Prop :=
  ∀ s : State, s.busy = false → exec .rewind s = .next { completed s with inPos := 0 }

/-- R250, R131, R64: RESET, at once and whether BUSY is 0 or 1, gives every piece of block state its reset value, and
the host's SRC and SINK stay; the platform's hardware reset does the same. What R64 leaves unspecified is not constrained here. -/
def Obligations.ResetGivesResetValues : Prop :=
  ∀ s : State, ∃ t nodes root codes next pending walk draws, exec .reset s = .next t ∧
    hostWrite 0x08 0x00000001 s = .next t ∧ hostMove .hardReset s = .next t ∧ statusWord t = 0 ∧ irq t = false ∧
    t = { State.reset with
      nodes := nodes, root := root, codes := codes, nextNode := next, pending := pending, walk := walk
      src := s.src, sink := s.sink, script := s.script, reads := s.reads, draws := draws }

/-! ### COUNT -/

/-- R141, R143: COUNT of fewer than 2^32 unread bytes counts each of them and leaves IN_POS after the last. -/
def Obligations.CountCountsUnread : Prop :=
  ∀ s : State, s.busy = false → (unread s).length < 2 ^ 32 →
    exec .count s = .next { completed s with
      treeValid := false, codesValid := false, decDone := false
      freq := countsOf (unread s), total := BitVec.ofNat 32 (unread s).length
      inPos := s.inPos + (unread s).length }

/-- R143: after a completed COUNT the counters sum to TOTAL, TOTAL is the number of bytes from the starting IN_POS to
end of stream, no counter is above it, and IN_POS is left at |SRC|, so the next read sees end of stream. -/
def Obligations.CountSumIsTotal : Prop :=
  ∀ s t : State, s.busy = false → exec .count s = .next t → t.done = true →
    (symbols.map fun sym => (getAt t.freq sym).toNat).sum = t.total.toNat ∧
    t.total.toNat = s.src.length - s.inPos ∧
    (∀ sym, (getAt t.freq sym).toNat ≤ t.total.toNat) ∧ t.total.toNat ≤ 2 ^ 32 - 1 ∧
    (s.inPos ≤ s.src.length → t.inPos = t.src.length) ∧ unread t = []

/-! ### BUILD_TREE -/

/-- R145, R146 (a), (f): BUILD_TREE completes on every FREQ contents, sets ROOT = 510 and TREE_VALID, clears CODES_VALID,
and the arena it leaves depends on FREQ alone, whatever the arena held; nothing else changes but NEXT, which is
unspecified (R31). -/
def Obligations.BuildTreeCompletes : Prop :=
  ∀ s : State, s.busy = false → ∃ next draws,
    exec .buildTree s = .next { completed s with
      treeValid := true, codesValid := false, nodes := treeOf s.freq, root := 510, q := [], nextNode := next
      draws := draws }

/-- R144, R145, R147: each internal node `n`, in creation order, has as left child the least and as right child the
second least, by (weight, index), of the nodes before it that no earlier merge has taken; its weight is their sum
mod 2^32; and the leaves carry FREQ. -/
def Obligations.MergesTakeTheTwoLeast : Prop :=
  ∀ s t : State, s.busy = false → exec .buildTree s = .next t →
    (∀ sym : Byte, t.nodes[leafOf sym].leaf = true ∧ t.nodes[leafOf sym].weight = getAt s.freq sym) ∧
    ∀ n : NodeIdx, 256 ≤ n.val →
      let l := t.nodes[n].left
      let r := t.nodes[n].right
      let free := fun m : NodeIdx => m < n ∧ ¬ ∃ p, ParentIn t.nodes n.val p m
      t.nodes[n].leaf = false ∧ free l ∧ free r ∧ KeyBefore t.nodes l r ∧
      (∀ m, free m → m ≠ l → m ≠ r → KeyBefore t.nodes r m) ∧
      t.nodes[n].weight = t.nodes[l].weight + t.nodes[r].weight

/-- R146 (a) to (c): the built tree is full, with 256 leaves and root 510, whatever the arena held before. -/
def Obligations.BuiltTreeIsFull : Prop :=
  ∀ s t : State, s.busy = false → exec .buildTree s = .next t → t.root = 510 ∧ TreeShape s.freq t.nodes

/-- R29, R146 (d): after BUILD_TREE ROOT = 510 and the root's weight is the sum of FREQ mod 2^32. -/
def Obligations.RootWeightIsTheSum : Prop :=
  ∀ s t : State, s.busy = false → exec .buildTree s = .next t → t.root = 510 ∧
    t.nodes[t.root].weight.toNat = (symbols.map fun sym => (getAt s.freq sym).toNat).sum % 2 ^ 32

/-! ### DERIVE_CODES -/

/-- R149, R150 (a), (b): on a built tree DERIVE_CODES completes, and the code of every symbol has 1 to 255 bits, leads
from ROOT to its leaf, and has zeros above it; nothing but LEN, VAL and CODES_VALID changes beside. -/
def Obligations.DeriveCodesGivesPaths : Prop :=
  ∀ s : State, s.busy = false → s.treeValid = true → s.root = 510 → TreeShape s.freq s.nodes →
    ∃ codes, exec .deriveCodes s = .next { completed s with codesValid := true, codes := codes } ∧
      CodesFit s.nodes codes

/-- R113, R150 (c): the 256 codes are pairwise prefix-free. -/
def Obligations.CodesArePrefixFree : Prop :=
  ∀ s t : State, s.busy = false → s.treeValid = true → s.root = 510 → TreeShape s.freq s.nodes →
    exec .deriveCodes s = .next t →
    ∀ a b : Byte, a ≠ b → ¬ (codeBits (getAt t.codes a) <+: codeBits (getAt t.codes b))

/-- R150 (d): the Kraft sum of the 256 codes is 1, written over 2^255. -/
def Obligations.KraftSumIsOne : Prop :=
  ∀ s t : State, s.busy = false → s.treeValid = true → s.root = 510 → TreeShape s.freq s.nodes →
    exec .deriveCodes s = .next t →
    (symbols.map fun sym => 2 ^ (255 - (getAt t.codes sym).len.toNat)).sum = 2 ^ 255

/-- R148: when every FREQ is the same v < 2^24, BUILD_TREE pairs node 256 + k = (2k, 2k + 1), and DERIVE_CODES then
completes with LEN = 8 and VAL = s for every symbol. -/
def Obligations.EqualWeightsGivePerfectTree : Prop :=
  ∀ (s : State) (v : Word), s.busy = false → v.toNat < 2 ^ 24 → (∀ sym, getAt s.freq sym = v) →
    ∃ t u, exec .buildTree s = .next t ∧ exec .deriveCodes t = .next u ∧
      (∀ (k : Nat) (h : k < 255),
        (t.nodes[256 + k]'(by omega)).left.val = 2 * k ∧ (t.nodes[256 + k]'(by omega)).right.val = 2 * k + 1) ∧
      ∀ sym : Byte, (getAt u.codes sym).len = 8 ∧ (getAt u.codes sym).val = sym.setWidth 256

/-! ### The encoder -/

/-- R171, R173: WRITE_HEADER emits the 1024 counter bytes, symbol `n` at offsets 4n to 4n+3 most significant first, then
the byte (Σ LEN × FREQ) mod 8, which it leaves in LAST_BITS. -/
def Obligations.WriteHeaderEmitsHeader : Prop :=
  ∀ s : State, s.busy = false → s.codesValid = true →
    ∃ header, exec .writeHeader s = .next { completed s with
        lastBits := BitVec.ofNat 3 (weightedLength s.codes s.freq % 8)
        sink := s.sink ++ header ++ [BitVec.ofNat 8 (weightedLength s.codes s.freq % 8)]
        outCount := 1025 } ∧
      header.length = 1024 ∧ ∀ n : Fin 256, headerCounter header n.val = s.freq[n]

/-- R174, R175 (b), (c), R77, R78: ENCODE_BODY emits the bitstream of the unread bytes, packed MSB first with the final
partial byte right-justified, ceil(N/8) bytes, and leaves ACC empty. -/
def Obligations.EncodeBodyPacksBitstream : Prop :=
  ∀ s : State, s.busy = false → s.codesValid = true →
    exec .encodeBody s = .next { completed s with
      acc := [], inPos := s.inPos + (unread s).length
      sink := s.sink ++ packBits (bitstream s.codes (unread s))
      outCount := BitVec.ofNat 32 (((bitstream s.codes (unread s)).length + 7) / 8) }

/-- R177, R178: ENCODE of a source shorter than 2^32 bytes completes from any IN_POS and emits the file of the whole
source, 1025 + ceil(N/8) bytes with N = Σ LEN × FREQ; its first 1024 bytes hold the true counts. -/
def Obligations.EncodeEmitsFile : Prop :=
  ∀ s : State, s.busy = false → s.src.length < 2 ^ 32 →
    (∃ next draws, exec .encode s = .next { completed s with
      treeValid := true, codesValid := true, decDone := false
      freq := countsOf s.src, total := BitVec.ofNat 32 s.src.length, inPos := s.src.length
      nodes := treeOf (countsOf s.src), root := 510, codes := codesFor s.src
      q := [], acc := [], nextNode := next, draws := draws
      lastBits := BitVec.ofNat 3 ((bitstream (codesFor s.src) s.src).length % 8)
      sink := s.sink ++ fileOf s.src, outCount := BitVec.ofNat 32 (fileOf s.src).length }) ∧
    (fileOf s.src).length = 1025 + (weightedLength (codesFor s.src) (countsOf s.src) + 7) / 8 ∧
    ∀ n : Fin 256, (headerCounter (fileOf s.src) n.val).toNat = s.src.count (BitVec.ofNat 8 n.val)

/-- R142, R177: the 2^32-th byte raises INPUT_TOO_LONG in COUNT; it is consumed and not counted. In ENCODE the error is
COUNT's, nothing has been emitted, and the source is read from its first byte. -/
def Obligations.TooLongInputIsRefused : Prop :=
  ∀ (s : State) (b : Byte), s.busy = false →
    ((unread s)[2 ^ 32 - 1]? = some b →
      exec .count s = .next { aborted 0x10 .inputTooLong (b.setWidth 32) s with
        treeValid := false, codesValid := false, decDone := false
        freq := countsOf ((unread s).take (2 ^ 32 - 1)), total := 0xFFFFFFFF
        inPos := s.inPos + 2 ^ 32 }) ∧
    (s.src[2 ^ 32 - 1]? = some b →
      exec .encode s = .next { aborted 0x10 .inputTooLong (b.setWidth 32) s with
        treeValid := false, codesValid := false, decDone := false
        freq := countsOf (s.src.take (2 ^ 32 - 1)), total := 0xFFFFFFFF, inPos := 2 ^ 32 })

/-! ### The decoder -/

/-- R191: a whole header with a `last_bits` byte of at most 7 fills FREQ and LAST_BITS. -/
def Obligations.ReadHeaderFillsFreq : Prop :=
  ∀ (s : State) (b : Byte), s.busy = false → (unread s)[1024]? = some b → b.toNat ≤ 7 →
    exec .readHeader s = .next { completed s with
      treeValid := false, codesValid := false, decDone := false
      freq := headerInto (unread s) 256 s.freq, lastBits := b.setWidth 3, inPos := s.inPos + 1025 }

/-- R191, R192, R227: fewer than 1024 bytes raise HEADER_TRUNCATED with the number read; the whole counters are
written, a partly read one is discarded. -/
def Obligations.ReadHeaderTruncated : Prop :=
  ∀ s : State, s.busy = false → (unread s).length < 1024 →
    exec .readHeader s = .next { aborted 0x30 .headerTruncated (BitVec.ofNat 32 (unread s).length) s with
      treeValid := false, codesValid := false, decDone := false
      freq := headerInto (unread s) ((unread s).length / 4) s.freq, inPos := s.inPos + (unread s).length }

/-- R191, R202: a missing `last_bits` byte raises LAST_BITS_ABSENT and one above 7 raises LAST_BITS_RANGE; LAST_BITS is
unchanged and all 256 counters are written. -/
def Obligations.ReadHeaderLastBitsErrors : Prop :=
  ∀ s : State, s.busy = false →
    ((unread s).length = 1024 →
      exec .readHeader s = .next { aborted 0x30 .lastBitsAbsent 1024 s with
        treeValid := false, codesValid := false, decDone := false
        freq := headerInto (unread s) 256 s.freq, inPos := s.inPos + 1024 }) ∧
    ∀ b : Byte, (unread s)[1024]? = some b → 7 < b.toNat →
      exec .readHeader s = .next { aborted 0x30 .lastBitsRange (b.setWidth 32) s with
        treeValid := false, codesValid := false, decDone := false
        freq := headerInto (unread s) 256 s.freq, inPos := s.inPos + 1025 }

/-- R194, R195, R190: with an internal root DECODE_BODY walks the bits of the unread bytes, the final byte's low
LAST_BITS bits (8 if 0), emits the symbol of each leaf reached, counts it in VFREQ, and sets TRAIL_PARTIAL when the walk
ends off the root. -/
def Obligations.DecodeBodyWalksBits : Prop :=
  ∀ s : State, s.busy = false → s.treeValid = true → s.nodes[s.root].leaf = false →
    let r := decodeWalk s.nodes s.root s.root (bodyBits s.lastBits (unread s))
    ∃ pending walk draws, exec .decodeBody s = .next { completed s with
      decDone := true, trailPartial := decide (r.2 ≠ s.root), vfreq := vcountsOf r.1
      inPos := s.inPos + (unread s).length
      sink := s.sink ++ r.1, outCount := BitVec.ofNat 32 r.1.length
      pendingValid := false, pending := pending, walk := walk, draws := draws }

/-- R197: VERIFY completes when every count agrees. -/
def Obligations.VerifyPasses : Prop :=
  ∀ s : State, s.busy = false → s.decDone = true →
    (∀ sym, (getAt s.vfreq sym).val = (getAt s.freq sym).toNat) → exec .verify s = .next (completed s)

/-- R197: VERIFY raises CHECKSUM_MISMATCH at the lowest symbol whose counts differ. -/
def Obligations.VerifyReportsLowestMismatch : Prop :=
  ∀ (s : State) (sym : Byte), s.busy = false → s.decDone = true →
    (getAt s.vfreq sym).val ≠ (getAt s.freq sym).toNat →
    (∀ a : Byte, a < sym → (getAt s.vfreq a).val = (getAt s.freq a).toNat) →
    exec .verify s = .next (aborted 0x32 .checksumMismatch (sym.setWidth 32) s)

/-- R199, R191, R198: DECODE of a source with a whole header, a `last_bits` byte of at most 7 and a body whose symbols
have the header's counts completes from any IN_POS, and emits those symbols. -/
def Obligations.DecodeCompletes : Prop :=
  ∀ (s : State) (b : Byte), s.busy = false → s.src[1024]? = some b → b.toNat ≤ 7 →
    let freq := headerInto s.src 256 s.freq
    let r := decodeWalk (treeOf freq) 510 510 (bodyBits (b.setWidth 3) (s.src.drop 1025))
    (∀ sym, (getAt (vcountsOf r.1) sym).val = (getAt freq sym).toNat) →
    ∃ next pending walk draws, exec .decode s = .next { completed s with
      treeValid := true, codesValid := false, decDone := true, trailPartial := decide (r.2 ≠ 510)
      freq := freq, vfreq := vcountsOf r.1, lastBits := b.setWidth 3, inPos := s.src.length
      nodes := treeOf freq, root := 510, q := [], nextNode := next
      pendingValid := false, pending := pending, walk := walk, draws := draws
      sink := s.sink ++ r.1, outCount := BitVec.ofNat 32 r.1.length }

/-- R200: ENCODE of any `bytes` shorter than 2^32 emits a file of which DECODE completes, emits exactly `bytes`, and
leaves TRAIL_PARTIAL = 0. -/
def Obligations.RoundTrip : Prop :=
  ∀ (s u : State) (bytes : List Byte), s.busy = false → u.busy = false → bytes.length < 2 ^ 32 →
    ∃ t file, exec .encode { s with src := bytes } = .next t ∧ t.sink = s.sink ++ file ∧
    ∃ next pending walk draws, exec .decode { u with src := file } = .next { completed u with
      treeValid := true, codesValid := false, decDone := true, trailPartial := false
      freq := countsOf bytes, vfreq := vcountsOf bytes, lastBits := t.lastBits
      src := file, inPos := file.length, nodes := t.nodes, root := 510
      q := [], nextNode := next, pendingValid := false, pending := pending, walk := walk, draws := draws
      sink := u.sink ++ bytes, outCount := BitVec.ofNat 32 bytes.length }

/-! ### Errors -/

/-- R107, R229: a primitive whose prerequisite flag is 0 raises SEQUENCE with that flag's STATUS bit, at its first
micro-step and before it writes anything. -/
def Obligations.MissingFlagRaisesSequence : Prop :=
  ∀ s : State, s.busy = false →
    ∀ row ∈ [(Instr.deriveCodes, s.treeValid, (0x10 : Word)), (.writeHeader, s.codesValid, 0x20),
        (.encodeBody, s.codesValid, 0x20), (.decodeBody, s.treeValid, 0x10), (.verify, s.decDone, 0x40)],
      row.2.1 = false →
        exec row.1 s = .next (aborted (opcodeOf row.1) .sequence row.2.2 s) ∧
        microStep (accept row.1 s) = exec row.1 s

/-- R223, R196: ENCODE raises only INPUT_TOO_LONG and DECODE only causes 1 to 5, of which WALK_OFF_TREE never; both
always answer a next state. -/
def Obligations.MacrosRaiseOnlyTheirCauses : Prop :=
  ∀ s : State, s.busy = false →
    (∃ t, exec .encode s = .next t ∧ t.errCause ∈ [Cause.none, .inputTooLong]) ∧
    (∃ t, exec .decode s = .next t ∧
      t.errCause ∈ [Cause.none, .headerTruncated, .lastBitsAbsent, .lastBitsRange, .checksumMismatch])

/-- R25: an accepted command ends with BUSY = 0, the idle position, and exactly one of DONE and ERR. -/
def Obligations.CommandEndsDoneOrErr : Prop :=
  ∀ (s t : State) (i : Instr), s.busy = false → i ≠ .reset → exec i s = .next t →
    t.busy = false ∧ t.issuedOp = 0 ∧ t.curOp = 0 ∧ t.mstep = 0 ∧ t.phase = .idle ∧
      (t.done ^^ t.err) = true ∧ (t.done = true ↔ t.errCause = .none)

/-- R49: OUT_COUNT is the number of bytes the command emitted, mod 2^32, whether it completed or not. -/
def Obligations.OutCountCountsEmitted : Prop :=
  ∀ (s t : State) (i : Instr), s.busy = false → i ≠ .reset → exec i s = .next t →
    ∃ bytes, t.sink = s.sink ++ bytes ∧ t.outCount = BitVec.ofNat 32 bytes.length

/-- The frame all commands share: no command but RESET changes CTRL, an index register, SRC, or the host's script and
reads; OVERRUN changes only by a dropped write. -/
def Obligations.CommandsKeepHostRegisters : Prop :=
  ∀ (s t : State) (i : Instr), i ≠ .reset → exec i s = .next t →
    t.ie = s.ie ∧ t.freqIdx = s.freqIdx ∧ t.codeIdx = s.codeIdx ∧ t.nodeIdx = s.nodeIdx ∧ t.src = s.src ∧
      t.script = s.script ∧ t.reads = s.reads ∧ t.overrun = (s.overrun || s.busy)

/-! ### The register window -/

/-- R37, R42, R62, R44, R221, R45, R47 to R49: at every state, busy or idle, the host's reads of STATUS, ERR_CAUSE,
ERR_INFO, TOTAL, IN_COUNT and OUT_COUNT return these words and change nothing else; the fields of STATUS and ERR_CAUSE;
and the code of each cause. -/
def Obligations.StatusErrorAndCounterReads : Prop :=
  ∀ s : State, ReadsAs 0x0C (statusWord s) s ∧ ReadsAs 0x10 (errCauseWord s) s ∧ ReadsAs 0x14 s.errInfo s ∧
    ReadsAs 0x1C s.total s ∧ ReadsAs 0x20 (BitVec.ofNat 32 (s.inPos % 2 ^ 32)) s ∧ ReadsAs 0x24 s.outCount s ∧
    (statusWord s).getLsbD 0 = s.busy ∧ (statusWord s).getLsbD 1 = s.done ∧ (statusWord s).getLsbD 2 = s.err ∧
    (statusWord s).getLsbD 3 = s.overrun ∧ (statusWord s).getLsbD 4 = s.treeValid ∧
    (statusWord s).getLsbD 5 = s.codesValid ∧ (statusWord s).getLsbD 6 = s.decDone ∧
    (statusWord s).getLsbD 7 = s.trailPartial ∧ (statusWord s).getLsbD 8 = (s.ie && (s.done || s.err)) ∧
    (statusWord s).extractLsb' 9 7 = 0 ∧ (statusWord s).extractLsb' 16 8 = s.curOp ∧
    (statusWord s).extractLsb' 24 8 = s.issuedOp ∧
    (errCauseWord s).extractLsb' 0 8 = causeCode s.errCause ∧ (errCauseWord s).extractLsb' 8 8 = s.errOp ∧
    (errCauseWord s).extractLsb' 16 16 = 0 ∧
    [Cause.none, .headerTruncated, .lastBitsAbsent, .lastBitsRange, .walkOffTree, .checksumMismatch, .illegalCommand,
      .sequence, .inputTooLong].map causeCode = [0x00, 0x01, 0x02, 0x03, 0x04, 0x05, 0x10, 0x11, 0x12]

/-- R43: a write of STATUS clears DONE, ERR and OVERRUN where the written bit is 1, also while BUSY = 1, and nothing
else. -/
def Obligations.StatusWriteOneToClear : Prop :=
  ∀ (s : State) (v : Word), hostWrite 0x0C v s = .next { s with
    done := if v.getLsbD 1 then false else s.done
    err := if v.getLsbD 2 then false else s.err
    overrun := if v.getLsbD 3 then false else s.overrun }

/-- R52, R51: while idle a write of FREQ_DATA stores the word, clears TREE_VALID and CODES_VALID and leaves every other
counter and flag; the read then returns the word. -/
def Obligations.FreqDataWriteThenRead : Prop :=
  ∀ (s : State) (v : Word), s.busy = false → ∃ t, hostWrite 0x2C v s = .next t ∧
    t = { s with freq := t.freq, treeValid := false, codesValid := false } ∧
    (∀ sym, getAt t.freq sym = if sym = s.freqIdx then v else getAt s.freq sym) ∧
    hostRead 0x2C t = .next { t with reads := t.reads ++ [(0x2C, v)] }

/-- R37, R38, R40, R46, R50, R55, R58: at every state a read of a read-write register returns its field with the reserved
bits 0; while idle a write stores the low bits in that register's field and changes nothing else, and the read then
returns those bits. -/
def Obligations.ReadWriteRegistersKeepFields : Prop :=
  ∀ (s : State) (v : Word),
    (ReadsAs 0x04 ((BitVec.ofBool s.ie).setWidth 32) s ∧ ReadsAs 0x18 (s.lastBits.setWidth 32) s ∧
      ReadsAs 0x28 (s.freqIdx.setWidth 32) s ∧ ReadsAs 0x38 (s.codeIdx.setWidth 32) s ∧
      ReadsAs 0x44 (s.nodeIdx.setWidth 32) s) ∧
    (s.busy = false →
      ∀ row ∈ [(0x04, 1, { s with ie := v.getLsbD 0 }), (0x18, 3, { s with lastBits := v.setWidth 3 }),
          (0x28, 8, { s with freqIdx := v.setWidth 8 }), (0x38, 11, { s with codeIdx := v.setWidth 11 }),
          (0x44, 9, { s with nodeIdx := v.setWidth 9 })],
        hostWrite row.1 v s = .next row.2.2 ∧
        ReadsAs row.1 (v &&& BitVec.ofNat 32 (2 ^ row.2.1 - 1)) row.2.2)

/-- R38, R39: at every time a read-only register and a reserved offset ignore a write, ID and CMD read their constants,
and a reserved offset reads 0. -/
def Obligations.ReadOnlyAndReservedOffsets : Prop :=
  ∀ (s : State) (v : Word),
    (∀ off ∈ [0x00, 0x10, 0x14, 0x1C, 0x20, 0x24, 0x30, 0x34, 0x3C, 0x40, 0x48, 0x4C, 0x50],
      hostWrite off v s = .next s) ∧
    (∀ off, 0x54 ≤ off → off < 0x100 → off % 4 = 0 → hostWrite off v s = .next s ∧
      hostRead off s = .next { s with reads := s.reads ++ [(off, 0)] }) ∧
    hostRead 0x00 s = .next { s with reads := s.reads ++ [(0x00, 0x48554631)] } ∧
    hostRead 0x08 s = .next { s with reads := s.reads ++ [(0x08, 0)] }

/-- R38: no read has a side effect: a read changes only what the host has read and the model's count of draws (the
model's own fields, logs 12 and 6). -/
def Obligations.ReadsHaveNoSideEffect : Prop :=
  ∀ (s t : State) (off : Nat), hostRead off s = .next t → t = { s with reads := t.reads, draws := t.draws }

/-- R37, R58 to R61: while idle with TREE_VALID = 1 the host's reads of the arena's windows show the selected node, and
index 511 reads 0. -/
def Obligations.NodeWindowShowsNode : Prop :=
  ∀ s : State, s.busy = false →
    (s.nodeIdx = 511 → ReadsAs 0x48 0 s ∧ ReadsAs 0x4C 0 s) ∧
    (s.treeValid = true → ReadsAs 0x50 (BitVec.ofNat 32 s.root.val) s ∧
      ∀ n : NodeIdx, s.nodeIdx = BitVec.ofNat 9 n.val →
        ReadsAs 0x48 s.nodes[n].weight s ∧
        ReadsAs 0x4C
          (if s.nodes[n].leaf then 0x80000000
            else BitVec.ofNat 32 (s.nodes[n].right.val * 2 ^ 16 + s.nodes[n].left.val)) s)

/-- R37, R51, R53, R54, R56, R57: while idle the host's reads of the counter windows show FREQ, VFREQ saturated to 32
bits, and its overflow bit; with CODES_VALID = 1 the code windows show LEN and the selected 32-bit slice of VAL. -/
def Obligations.CounterAndCodeWindowsShowTables : Prop :=
  ∀ s : State, s.busy = false →
    (ReadsAs 0x2C (getAt s.freq s.freqIdx) s ∧
      ReadsAs 0x30 (BitVec.ofNat 32 (min (getAt s.vfreq s.freqIdx).val (2 ^ 32 - 1))) s ∧
      ReadsAs 0x34 (if (getAt s.vfreq s.freqIdx).val = 2 ^ 32 then 1 else 0) s) ∧
    (s.codesValid = true →
      let c := getAt s.codes (s.codeIdx.setWidth 8)
      ReadsAs 0x3C (c.len.setWidth 32) s ∧
      ReadsAs 0x40 (BitVec.ofNat 32 (c.val.toNat / 2 ^ (32 * (s.codeIdx.toNat / 256)))) s)

/-- R80, R71: a misaligned access or one outside the window, and an attach while busy, are refused by name (log 13); an
attach while idle replaces SRC and sets IN_POS to 0. -/
def Obligations.HostMovesOutsideTheRules : Prop :=
  ∀ (s : State) (off : Nat) (v : Word) (bytes : List Byte),
    (off % 4 ≠ 0 ∨ 256 ≤ off →
      hostRead off s = .refused .unsupportedAccess ∧ hostWrite off v s = .refused .unsupportedAccess) ∧
    (s.busy = true → hostAttach bytes s = .refused .attachWhileBusy) ∧
    (s.busy = false → hostAttach bytes s = .next { s with src := bytes, inPos := 0 })

/-! ### The micro-steps run the command -/

/-- The control commands, the tree builder and the encoder's and decoder's primitives: the micro-steps from acceptance,
with no host move between, end where `exec` says, and stay there (the model's choices: logs 1 and 10). -/
def Obligations.MicroStepsRunPrimitives : Prop :=
  ∀ (s : State) (i : Instr), s.busy = false → i ∉ [Instr.reset, .encode, .decode] →
    ∃ k, ∀ j, microSteps (k + j) (accept i s) = exec i s

/-- The same for the two macros (R106; logs 1 and 10). -/
def Obligations.MicroStepsRunMacros : Prop :=
  ∀ (s : State) (i : Instr), s.busy = false → i ∈ [Instr.encode, .decode] →
    ∃ k, ∀ j, microSteps (k + j) (accept i s) = exec i s

/-- R262: BUILD_TREE alone takes 1 + 255 + 1 micro-steps, and is busy before the last. -/
def Obligations.BuildTreeMicroStepCount : Prop :=
  ∀ s : State, s.busy = false → microSteps 257 (accept .buildTree s) = exec .buildTree s ∧
    ∀ k < 257, ∃ t, microSteps k (accept .buildTree s) = .next t ∧ t.busy = true

/-! ### Invariants -/

/-- After reset the sequencer invariant and the table invariant hold. -/
def Obligations.ResetKeepsInvariants : Prop := ControlInv State.reset ∧ TreeInv State.reset

/-- R23, R25, R31 to R33, R35, R42, R45: every step keeps the sequencer invariant. -/
def Obligations.StepKeepsControlInv : Prop :=
  ∀ s t : State, ControlInv s → step s = .next t → ControlInv t

/-- R42, R63, R146, R196: every step keeps the table invariant: TREE_VALID always means a full tree of the present FREQ
with root 510, and a running walk never stands on a leaf. -/
def Obligations.StepKeepsTreeInv : Prop :=
  ∀ s t : State, ControlInv s → TreeInv s → step s = .next t → TreeInv t

/-- The model's faults name states no run reaches (log 11): under the invariants no step faults. -/
def Obligations.NoStepFaults : Prop :=
  ∀ s : State, ControlInv s → TreeInv s → ∀ f, step s ≠ .fault f

/-- R70, R75, R254: SINK only grows by appending; no step retracts a byte. -/
def Obligations.SinkOnlyGrows : Prop :=
  ∀ s t : State, step s = .next t → s.sink <+: t.sink

/-- R70, R92: SRC changes only when the host attaches a source. -/
def Obligations.SourceChangesOnlyByAttach : Prop :=
  ∀ s t : State, step s = .next t → (∀ bytes, s.script.head? ≠ some (.attach bytes)) → t.src = s.src

/-- R252: no outcome of any command depends on an unspecified value: two states that differ only in unspecified values
give results that differ only in unspecified values. -/
def Obligations.UnspecifiedValuesStayHidden : Prop :=
  ∀ (s s' : State) (i : Instr), TreeInv s → visible s = visible s' → SameVisible (exec i s) (exec i s')
end

