-- ==== Sys2Proof/Laws/State.lean ====
section
/-! SUPPORT. One lemma for each field of each update of State, so that no later proof unfolds a record update. -/

namespace Sys2Proof.Machine

/-! `outWrite` -/

section
variable (b : Byte) (s : State)

@[simp] theorem outWrite_issuedOp : (outWrite b s).issuedOp = s.issuedOp := rfl
@[simp] theorem outWrite_curOp : (outWrite b s).curOp = s.curOp := rfl
@[simp] theorem outWrite_mstep : (outWrite b s).mstep = s.mstep := rfl
@[simp] theorem outWrite_phase : (outWrite b s).phase = s.phase := rfl
@[simp] theorem outWrite_busy : (outWrite b s).busy = s.busy := rfl
@[simp] theorem outWrite_done : (outWrite b s).done = s.done := rfl
@[simp] theorem outWrite_err : (outWrite b s).err = s.err := rfl
@[simp] theorem outWrite_overrun : (outWrite b s).overrun = s.overrun := rfl
@[simp] theorem outWrite_treeValid : (outWrite b s).treeValid = s.treeValid := rfl
@[simp] theorem outWrite_codesValid : (outWrite b s).codesValid = s.codesValid := rfl
@[simp] theorem outWrite_decDone : (outWrite b s).decDone = s.decDone := rfl
@[simp] theorem outWrite_trailPartial : (outWrite b s).trailPartial = s.trailPartial := rfl
@[simp] theorem outWrite_ie : (outWrite b s).ie = s.ie := rfl
@[simp] theorem outWrite_errCause : (outWrite b s).errCause = s.errCause := rfl
@[simp] theorem outWrite_errOp : (outWrite b s).errOp = s.errOp := rfl
@[simp] theorem outWrite_errInfo : (outWrite b s).errInfo = s.errInfo := rfl
@[simp] theorem outWrite_lastBits : (outWrite b s).lastBits = s.lastBits := rfl
@[simp] theorem outWrite_total : (outWrite b s).total = s.total := rfl
@[simp] theorem outWrite_inPos : (outWrite b s).inPos = s.inPos := rfl
@[simp] theorem outWrite_outCount : (outWrite b s).outCount = s.outCount + 1 := rfl
@[simp] theorem outWrite_freqIdx : (outWrite b s).freqIdx = s.freqIdx := rfl
@[simp] theorem outWrite_codeIdx : (outWrite b s).codeIdx = s.codeIdx := rfl
@[simp] theorem outWrite_nodeIdx : (outWrite b s).nodeIdx = s.nodeIdx := rfl
@[simp] theorem outWrite_freq : (outWrite b s).freq = s.freq := rfl
@[simp] theorem outWrite_vfreq : (outWrite b s).vfreq = s.vfreq := rfl
@[simp] theorem outWrite_nodes : (outWrite b s).nodes = s.nodes := rfl
@[simp] theorem outWrite_root : (outWrite b s).root = s.root := rfl
@[simp] theorem outWrite_codes : (outWrite b s).codes = s.codes := rfl
@[simp] theorem outWrite_q : (outWrite b s).q = s.q := rfl
@[simp] theorem outWrite_nextNode : (outWrite b s).nextNode = s.nextNode := rfl
@[simp] theorem outWrite_acc : (outWrite b s).acc = s.acc := rfl
@[simp] theorem outWrite_pending : (outWrite b s).pending = s.pending := rfl
@[simp] theorem outWrite_pendingValid : (outWrite b s).pendingValid = s.pendingValid := rfl
@[simp] theorem outWrite_walk : (outWrite b s).walk = s.walk := rfl
@[simp] theorem outWrite_src : (outWrite b s).src = s.src := rfl
@[simp] theorem outWrite_sink : (outWrite b s).sink = s.sink ++ [b] := rfl
@[simp] theorem outWrite_script : (outWrite b s).script = s.script := rfl
@[simp] theorem outWrite_reads : (outWrite b s).reads = s.reads := rfl
@[simp] theorem outWrite_draws : (outWrite b s).draws = s.draws := rfl

end

/-! `outWriteAll` -/

section
variable (bs : List Byte) (s : State)

@[simp] theorem outWriteAll_issuedOp : (outWriteAll bs s).issuedOp = s.issuedOp := rfl
@[simp] theorem outWriteAll_curOp : (outWriteAll bs s).curOp = s.curOp := rfl
@[simp] theorem outWriteAll_mstep : (outWriteAll bs s).mstep = s.mstep := rfl
@[simp] theorem outWriteAll_phase : (outWriteAll bs s).phase = s.phase := rfl
@[simp] theorem outWriteAll_busy : (outWriteAll bs s).busy = s.busy := rfl
@[simp] theorem outWriteAll_done : (outWriteAll bs s).done = s.done := rfl
@[simp] theorem outWriteAll_err : (outWriteAll bs s).err = s.err := rfl
@[simp] theorem outWriteAll_overrun : (outWriteAll bs s).overrun = s.overrun := rfl
@[simp] theorem outWriteAll_treeValid : (outWriteAll bs s).treeValid = s.treeValid := rfl
@[simp] theorem outWriteAll_codesValid : (outWriteAll bs s).codesValid = s.codesValid := rfl
@[simp] theorem outWriteAll_decDone : (outWriteAll bs s).decDone = s.decDone := rfl
@[simp] theorem outWriteAll_trailPartial : (outWriteAll bs s).trailPartial = s.trailPartial := rfl
@[simp] theorem outWriteAll_ie : (outWriteAll bs s).ie = s.ie := rfl
@[simp] theorem outWriteAll_errCause : (outWriteAll bs s).errCause = s.errCause := rfl
@[simp] theorem outWriteAll_errOp : (outWriteAll bs s).errOp = s.errOp := rfl
@[simp] theorem outWriteAll_errInfo : (outWriteAll bs s).errInfo = s.errInfo := rfl
@[simp] theorem outWriteAll_lastBits : (outWriteAll bs s).lastBits = s.lastBits := rfl
@[simp] theorem outWriteAll_total : (outWriteAll bs s).total = s.total := rfl
@[simp] theorem outWriteAll_inPos : (outWriteAll bs s).inPos = s.inPos := rfl
@[simp] theorem outWriteAll_outCount : (outWriteAll bs s).outCount = s.outCount + BitVec.ofNat 32 bs.length := rfl
@[simp] theorem outWriteAll_freqIdx : (outWriteAll bs s).freqIdx = s.freqIdx := rfl
@[simp] theorem outWriteAll_codeIdx : (outWriteAll bs s).codeIdx = s.codeIdx := rfl
@[simp] theorem outWriteAll_nodeIdx : (outWriteAll bs s).nodeIdx = s.nodeIdx := rfl
@[simp] theorem outWriteAll_freq : (outWriteAll bs s).freq = s.freq := rfl
@[simp] theorem outWriteAll_vfreq : (outWriteAll bs s).vfreq = s.vfreq := rfl
@[simp] theorem outWriteAll_nodes : (outWriteAll bs s).nodes = s.nodes := rfl
@[simp] theorem outWriteAll_root : (outWriteAll bs s).root = s.root := rfl
@[simp] theorem outWriteAll_codes : (outWriteAll bs s).codes = s.codes := rfl
@[simp] theorem outWriteAll_q : (outWriteAll bs s).q = s.q := rfl
@[simp] theorem outWriteAll_nextNode : (outWriteAll bs s).nextNode = s.nextNode := rfl
@[simp] theorem outWriteAll_acc : (outWriteAll bs s).acc = s.acc := rfl
@[simp] theorem outWriteAll_pending : (outWriteAll bs s).pending = s.pending := rfl
@[simp] theorem outWriteAll_pendingValid : (outWriteAll bs s).pendingValid = s.pendingValid := rfl
@[simp] theorem outWriteAll_walk : (outWriteAll bs s).walk = s.walk := rfl
@[simp] theorem outWriteAll_src : (outWriteAll bs s).src = s.src := rfl
@[simp] theorem outWriteAll_sink : (outWriteAll bs s).sink = s.sink ++ bs := rfl
@[simp] theorem outWriteAll_script : (outWriteAll bs s).script = s.script := rfl
@[simp] theorem outWriteAll_reads : (outWriteAll bs s).reads = s.reads := rfl
@[simp] theorem outWriteAll_draws : (outWriteAll bs s).draws = s.draws := rfl

end

/-! `rewindInput` -/

section
variable  (s : State)

@[simp] theorem rewindInput_issuedOp : (rewindInput s).issuedOp = s.issuedOp := rfl
@[simp] theorem rewindInput_curOp : (rewindInput s).curOp = s.curOp := rfl
@[simp] theorem rewindInput_mstep : (rewindInput s).mstep = s.mstep := rfl
@[simp] theorem rewindInput_phase : (rewindInput s).phase = s.phase := rfl
@[simp] theorem rewindInput_busy : (rewindInput s).busy = s.busy := rfl
@[simp] theorem rewindInput_done : (rewindInput s).done = s.done := rfl
@[simp] theorem rewindInput_err : (rewindInput s).err = s.err := rfl
@[simp] theorem rewindInput_overrun : (rewindInput s).overrun = s.overrun := rfl
@[simp] theorem rewindInput_treeValid : (rewindInput s).treeValid = s.treeValid := rfl
@[simp] theorem rewindInput_codesValid : (rewindInput s).codesValid = s.codesValid := rfl
@[simp] theorem rewindInput_decDone : (rewindInput s).decDone = s.decDone := rfl
@[simp] theorem rewindInput_trailPartial : (rewindInput s).trailPartial = s.trailPartial := rfl
@[simp] theorem rewindInput_ie : (rewindInput s).ie = s.ie := rfl
@[simp] theorem rewindInput_errCause : (rewindInput s).errCause = s.errCause := rfl
@[simp] theorem rewindInput_errOp : (rewindInput s).errOp = s.errOp := rfl
@[simp] theorem rewindInput_errInfo : (rewindInput s).errInfo = s.errInfo := rfl
@[simp] theorem rewindInput_lastBits : (rewindInput s).lastBits = s.lastBits := rfl
@[simp] theorem rewindInput_total : (rewindInput s).total = s.total := rfl
@[simp] theorem rewindInput_inPos : (rewindInput s).inPos = 0 := rfl
@[simp] theorem rewindInput_outCount : (rewindInput s).outCount = s.outCount := rfl
@[simp] theorem rewindInput_freqIdx : (rewindInput s).freqIdx = s.freqIdx := rfl
@[simp] theorem rewindInput_codeIdx : (rewindInput s).codeIdx = s.codeIdx := rfl
@[simp] theorem rewindInput_nodeIdx : (rewindInput s).nodeIdx = s.nodeIdx := rfl
@[simp] theorem rewindInput_freq : (rewindInput s).freq = s.freq := rfl
@[simp] theorem rewindInput_vfreq : (rewindInput s).vfreq = s.vfreq := rfl
@[simp] theorem rewindInput_nodes : (rewindInput s).nodes = s.nodes := rfl
@[simp] theorem rewindInput_root : (rewindInput s).root = s.root := rfl
@[simp] theorem rewindInput_codes : (rewindInput s).codes = s.codes := rfl
@[simp] theorem rewindInput_q : (rewindInput s).q = s.q := rfl
@[simp] theorem rewindInput_nextNode : (rewindInput s).nextNode = s.nextNode := rfl
@[simp] theorem rewindInput_acc : (rewindInput s).acc = s.acc := rfl
@[simp] theorem rewindInput_pending : (rewindInput s).pending = s.pending := rfl
@[simp] theorem rewindInput_pendingValid : (rewindInput s).pendingValid = s.pendingValid := rfl
@[simp] theorem rewindInput_walk : (rewindInput s).walk = s.walk := rfl
@[simp] theorem rewindInput_src : (rewindInput s).src = s.src := rfl
@[simp] theorem rewindInput_sink : (rewindInput s).sink = s.sink := rfl
@[simp] theorem rewindInput_script : (rewindInput s).script = s.script := rfl
@[simp] theorem rewindInput_reads : (rewindInput s).reads = s.reads := rfl
@[simp] theorem rewindInput_draws : (rewindInput s).draws = s.draws := rfl

end

/-! `releaseNext` -/

section
variable  (s : State)

@[simp] theorem releaseNext_issuedOp : (releaseNext s).issuedOp = s.issuedOp := rfl
@[simp] theorem releaseNext_curOp : (releaseNext s).curOp = s.curOp := rfl
@[simp] theorem releaseNext_mstep : (releaseNext s).mstep = s.mstep := rfl
@[simp] theorem releaseNext_phase : (releaseNext s).phase = s.phase := rfl
@[simp] theorem releaseNext_busy : (releaseNext s).busy = s.busy := rfl
@[simp] theorem releaseNext_done : (releaseNext s).done = s.done := rfl
@[simp] theorem releaseNext_err : (releaseNext s).err = s.err := rfl
@[simp] theorem releaseNext_overrun : (releaseNext s).overrun = s.overrun := rfl
@[simp] theorem releaseNext_treeValid : (releaseNext s).treeValid = s.treeValid := rfl
@[simp] theorem releaseNext_codesValid : (releaseNext s).codesValid = s.codesValid := rfl
@[simp] theorem releaseNext_decDone : (releaseNext s).decDone = s.decDone := rfl
@[simp] theorem releaseNext_trailPartial : (releaseNext s).trailPartial = s.trailPartial := rfl
@[simp] theorem releaseNext_ie : (releaseNext s).ie = s.ie := rfl
@[simp] theorem releaseNext_errCause : (releaseNext s).errCause = s.errCause := rfl
@[simp] theorem releaseNext_errOp : (releaseNext s).errOp = s.errOp := rfl
@[simp] theorem releaseNext_errInfo : (releaseNext s).errInfo = s.errInfo := rfl
@[simp] theorem releaseNext_lastBits : (releaseNext s).lastBits = s.lastBits := rfl
@[simp] theorem releaseNext_total : (releaseNext s).total = s.total := rfl
@[simp] theorem releaseNext_inPos : (releaseNext s).inPos = s.inPos := rfl
@[simp] theorem releaseNext_outCount : (releaseNext s).outCount = s.outCount := rfl
@[simp] theorem releaseNext_freqIdx : (releaseNext s).freqIdx = s.freqIdx := rfl
@[simp] theorem releaseNext_codeIdx : (releaseNext s).codeIdx = s.codeIdx := rfl
@[simp] theorem releaseNext_nodeIdx : (releaseNext s).nodeIdx = s.nodeIdx := rfl
@[simp] theorem releaseNext_freq : (releaseNext s).freq = s.freq := rfl
@[simp] theorem releaseNext_vfreq : (releaseNext s).vfreq = s.vfreq := rfl
@[simp] theorem releaseNext_nodes : (releaseNext s).nodes = s.nodes := rfl
@[simp] theorem releaseNext_root : (releaseNext s).root = s.root := rfl
@[simp] theorem releaseNext_codes : (releaseNext s).codes = s.codes := rfl
@[simp] theorem releaseNext_q : (releaseNext s).q = s.q := rfl
@[simp] theorem releaseNext_nextNode : (releaseNext s).nextNode = Config.freeNext s.draws := rfl
@[simp] theorem releaseNext_acc : (releaseNext s).acc = s.acc := rfl
@[simp] theorem releaseNext_pending : (releaseNext s).pending = s.pending := rfl
@[simp] theorem releaseNext_pendingValid : (releaseNext s).pendingValid = s.pendingValid := rfl
@[simp] theorem releaseNext_walk : (releaseNext s).walk = s.walk := rfl
@[simp] theorem releaseNext_src : (releaseNext s).src = s.src := rfl
@[simp] theorem releaseNext_sink : (releaseNext s).sink = s.sink := rfl
@[simp] theorem releaseNext_script : (releaseNext s).script = s.script := rfl
@[simp] theorem releaseNext_reads : (releaseNext s).reads = s.reads := rfl
@[simp] theorem releaseNext_draws : (releaseNext s).draws = s.draws + 1 := rfl

end

/-! `releaseWalk` -/

section
variable  (s : State)

@[simp] theorem releaseWalk_issuedOp : (releaseWalk s).issuedOp = s.issuedOp := rfl
@[simp] theorem releaseWalk_curOp : (releaseWalk s).curOp = s.curOp := rfl
@[simp] theorem releaseWalk_mstep : (releaseWalk s).mstep = s.mstep := rfl
@[simp] theorem releaseWalk_phase : (releaseWalk s).phase = s.phase := rfl
@[simp] theorem releaseWalk_busy : (releaseWalk s).busy = s.busy := rfl
@[simp] theorem releaseWalk_done : (releaseWalk s).done = s.done := rfl
@[simp] theorem releaseWalk_err : (releaseWalk s).err = s.err := rfl
@[simp] theorem releaseWalk_overrun : (releaseWalk s).overrun = s.overrun := rfl
@[simp] theorem releaseWalk_treeValid : (releaseWalk s).treeValid = s.treeValid := rfl
@[simp] theorem releaseWalk_codesValid : (releaseWalk s).codesValid = s.codesValid := rfl
@[simp] theorem releaseWalk_decDone : (releaseWalk s).decDone = s.decDone := rfl
@[simp] theorem releaseWalk_trailPartial : (releaseWalk s).trailPartial = s.trailPartial := rfl
@[simp] theorem releaseWalk_ie : (releaseWalk s).ie = s.ie := rfl
@[simp] theorem releaseWalk_errCause : (releaseWalk s).errCause = s.errCause := rfl
@[simp] theorem releaseWalk_errOp : (releaseWalk s).errOp = s.errOp := rfl
@[simp] theorem releaseWalk_errInfo : (releaseWalk s).errInfo = s.errInfo := rfl
@[simp] theorem releaseWalk_lastBits : (releaseWalk s).lastBits = s.lastBits := rfl
@[simp] theorem releaseWalk_total : (releaseWalk s).total = s.total := rfl
@[simp] theorem releaseWalk_inPos : (releaseWalk s).inPos = s.inPos := rfl
@[simp] theorem releaseWalk_outCount : (releaseWalk s).outCount = s.outCount := rfl
@[simp] theorem releaseWalk_freqIdx : (releaseWalk s).freqIdx = s.freqIdx := rfl
@[simp] theorem releaseWalk_codeIdx : (releaseWalk s).codeIdx = s.codeIdx := rfl
@[simp] theorem releaseWalk_nodeIdx : (releaseWalk s).nodeIdx = s.nodeIdx := rfl
@[simp] theorem releaseWalk_freq : (releaseWalk s).freq = s.freq := rfl
@[simp] theorem releaseWalk_vfreq : (releaseWalk s).vfreq = s.vfreq := rfl
@[simp] theorem releaseWalk_nodes : (releaseWalk s).nodes = s.nodes := rfl
@[simp] theorem releaseWalk_root : (releaseWalk s).root = s.root := rfl
@[simp] theorem releaseWalk_codes : (releaseWalk s).codes = s.codes := rfl
@[simp] theorem releaseWalk_q : (releaseWalk s).q = s.q := rfl
@[simp] theorem releaseWalk_nextNode : (releaseWalk s).nextNode = s.nextNode := rfl
@[simp] theorem releaseWalk_acc : (releaseWalk s).acc = s.acc := rfl
@[simp] theorem releaseWalk_pending : (releaseWalk s).pending = Config.freePending s.draws := rfl
@[simp] theorem releaseWalk_pendingValid : (releaseWalk s).pendingValid = s.pendingValid := rfl
@[simp] theorem releaseWalk_walk : (releaseWalk s).walk = Config.freeWalk s.draws := rfl
@[simp] theorem releaseWalk_src : (releaseWalk s).src = s.src := rfl
@[simp] theorem releaseWalk_sink : (releaseWalk s).sink = s.sink := rfl
@[simp] theorem releaseWalk_script : (releaseWalk s).script = s.script := rfl
@[simp] theorem releaseWalk_reads : (releaseWalk s).reads = s.reads := rfl
@[simp] theorem releaseWalk_draws : (releaseWalk s).draws = s.draws + 1 := rfl

end

/-! `enterElement` -/

section
variable (e : Instr) (s : State)

@[simp] theorem enterElement_issuedOp : (enterElement e s).issuedOp = s.issuedOp := rfl
@[simp] theorem enterElement_curOp : (enterElement e s).curOp = opcodeOf e := rfl
@[simp] theorem enterElement_mstep : (enterElement e s).mstep = s.mstep := rfl
@[simp] theorem enterElement_phase : (enterElement e s).phase = startPhase e := rfl
@[simp] theorem enterElement_busy : (enterElement e s).busy = s.busy := rfl
@[simp] theorem enterElement_done : (enterElement e s).done = s.done := rfl
@[simp] theorem enterElement_err : (enterElement e s).err = s.err := rfl
@[simp] theorem enterElement_overrun : (enterElement e s).overrun = s.overrun := rfl
@[simp] theorem enterElement_treeValid : (enterElement e s).treeValid = s.treeValid := rfl
@[simp] theorem enterElement_codesValid : (enterElement e s).codesValid = s.codesValid := rfl
@[simp] theorem enterElement_decDone : (enterElement e s).decDone = s.decDone := rfl
@[simp] theorem enterElement_trailPartial : (enterElement e s).trailPartial = s.trailPartial := rfl
@[simp] theorem enterElement_ie : (enterElement e s).ie = s.ie := rfl
@[simp] theorem enterElement_errCause : (enterElement e s).errCause = s.errCause := rfl
@[simp] theorem enterElement_errOp : (enterElement e s).errOp = s.errOp := rfl
@[simp] theorem enterElement_errInfo : (enterElement e s).errInfo = s.errInfo := rfl
@[simp] theorem enterElement_lastBits : (enterElement e s).lastBits = s.lastBits := rfl
@[simp] theorem enterElement_total : (enterElement e s).total = s.total := rfl
@[simp] theorem enterElement_inPos : (enterElement e s).inPos = s.inPos := rfl
@[simp] theorem enterElement_outCount : (enterElement e s).outCount = s.outCount := rfl
@[simp] theorem enterElement_freqIdx : (enterElement e s).freqIdx = s.freqIdx := rfl
@[simp] theorem enterElement_codeIdx : (enterElement e s).codeIdx = s.codeIdx := rfl
@[simp] theorem enterElement_nodeIdx : (enterElement e s).nodeIdx = s.nodeIdx := rfl
@[simp] theorem enterElement_freq : (enterElement e s).freq = s.freq := rfl
@[simp] theorem enterElement_vfreq : (enterElement e s).vfreq = s.vfreq := rfl
@[simp] theorem enterElement_nodes : (enterElement e s).nodes = s.nodes := rfl
@[simp] theorem enterElement_root : (enterElement e s).root = s.root := rfl
@[simp] theorem enterElement_codes : (enterElement e s).codes = s.codes := rfl
@[simp] theorem enterElement_q : (enterElement e s).q = s.q := rfl
@[simp] theorem enterElement_nextNode : (enterElement e s).nextNode = s.nextNode := rfl
@[simp] theorem enterElement_acc : (enterElement e s).acc = s.acc := rfl
@[simp] theorem enterElement_pending : (enterElement e s).pending = s.pending := rfl
@[simp] theorem enterElement_pendingValid : (enterElement e s).pendingValid = s.pendingValid := rfl
@[simp] theorem enterElement_walk : (enterElement e s).walk = s.walk := rfl
@[simp] theorem enterElement_src : (enterElement e s).src = s.src := rfl
@[simp] theorem enterElement_sink : (enterElement e s).sink = s.sink := rfl
@[simp] theorem enterElement_script : (enterElement e s).script = s.script := rfl
@[simp] theorem enterElement_reads : (enterElement e s).reads = s.reads := rfl
@[simp] theorem enterElement_draws : (enterElement e s).draws = s.draws := rfl

end

/-! `accept` -/

section
variable (i : Instr) (s : State)

@[simp] theorem accept_issuedOp : (accept i s).issuedOp = opcodeOf i := rfl
@[simp] theorem accept_curOp : (accept i s).curOp = opcodeOf ((expansion i).headD i) := rfl
@[simp] theorem accept_mstep : (accept i s).mstep = 0 := rfl
@[simp] theorem accept_phase : (accept i s).phase = startPhase ((expansion i).headD i) := rfl
@[simp] theorem accept_busy : (accept i s).busy = true := rfl
@[simp] theorem accept_done : (accept i s).done = false := rfl
@[simp] theorem accept_err : (accept i s).err = false := rfl
@[simp] theorem accept_overrun : (accept i s).overrun = s.overrun := rfl
@[simp] theorem accept_treeValid : (accept i s).treeValid = s.treeValid := rfl
@[simp] theorem accept_codesValid : (accept i s).codesValid = s.codesValid := rfl
@[simp] theorem accept_decDone : (accept i s).decDone = s.decDone := rfl
@[simp] theorem accept_trailPartial : (accept i s).trailPartial = s.trailPartial := rfl
@[simp] theorem accept_ie : (accept i s).ie = s.ie := rfl
@[simp] theorem accept_errCause : (accept i s).errCause = .none := rfl
@[simp] theorem accept_errOp : (accept i s).errOp = 0 := rfl
@[simp] theorem accept_errInfo : (accept i s).errInfo = 0 := rfl
@[simp] theorem accept_lastBits : (accept i s).lastBits = s.lastBits := rfl
@[simp] theorem accept_total : (accept i s).total = s.total := rfl
@[simp] theorem accept_inPos : (accept i s).inPos = s.inPos := rfl
@[simp] theorem accept_outCount : (accept i s).outCount = 0 := rfl
@[simp] theorem accept_freqIdx : (accept i s).freqIdx = s.freqIdx := rfl
@[simp] theorem accept_codeIdx : (accept i s).codeIdx = s.codeIdx := rfl
@[simp] theorem accept_nodeIdx : (accept i s).nodeIdx = s.nodeIdx := rfl
@[simp] theorem accept_freq : (accept i s).freq = s.freq := rfl
@[simp] theorem accept_vfreq : (accept i s).vfreq = s.vfreq := rfl
@[simp] theorem accept_nodes : (accept i s).nodes = s.nodes := rfl
@[simp] theorem accept_root : (accept i s).root = s.root := rfl
@[simp] theorem accept_codes : (accept i s).codes = s.codes := rfl
@[simp] theorem accept_q : (accept i s).q = s.q := rfl
@[simp] theorem accept_nextNode : (accept i s).nextNode = s.nextNode := rfl
@[simp] theorem accept_acc : (accept i s).acc = s.acc := rfl
@[simp] theorem accept_pending : (accept i s).pending = s.pending := rfl
@[simp] theorem accept_pendingValid : (accept i s).pendingValid = s.pendingValid := rfl
@[simp] theorem accept_walk : (accept i s).walk = s.walk := rfl
@[simp] theorem accept_src : (accept i s).src = s.src := rfl
@[simp] theorem accept_sink : (accept i s).sink = s.sink := rfl
@[simp] theorem accept_script : (accept i s).script = s.script := rfl
@[simp] theorem accept_reads : (accept i s).reads = s.reads := rfl
@[simp] theorem accept_draws : (accept i s).draws = s.draws := rfl

end

/-! `complete` -/

section
variable  (s : State)

@[simp] theorem complete_issuedOp : (complete s).issuedOp = 0 := rfl
@[simp] theorem complete_curOp : (complete s).curOp = 0 := rfl
@[simp] theorem complete_mstep : (complete s).mstep = 0 := rfl
@[simp] theorem complete_phase : (complete s).phase = .idle := rfl
@[simp] theorem complete_busy : (complete s).busy = false := rfl
@[simp] theorem complete_done : (complete s).done = true := rfl
@[simp] theorem complete_err : (complete s).err = s.err := rfl
@[simp] theorem complete_overrun : (complete s).overrun = s.overrun := rfl
@[simp] theorem complete_treeValid : (complete s).treeValid = s.treeValid := rfl
@[simp] theorem complete_codesValid : (complete s).codesValid = s.codesValid := rfl
@[simp] theorem complete_decDone : (complete s).decDone = s.decDone := rfl
@[simp] theorem complete_trailPartial : (complete s).trailPartial = s.trailPartial := rfl
@[simp] theorem complete_ie : (complete s).ie = s.ie := rfl
@[simp] theorem complete_errCause : (complete s).errCause = s.errCause := rfl
@[simp] theorem complete_errOp : (complete s).errOp = s.errOp := rfl
@[simp] theorem complete_errInfo : (complete s).errInfo = s.errInfo := rfl
@[simp] theorem complete_lastBits : (complete s).lastBits = s.lastBits := rfl
@[simp] theorem complete_total : (complete s).total = s.total := rfl
@[simp] theorem complete_inPos : (complete s).inPos = s.inPos := rfl
@[simp] theorem complete_outCount : (complete s).outCount = s.outCount := rfl
@[simp] theorem complete_freqIdx : (complete s).freqIdx = s.freqIdx := rfl
@[simp] theorem complete_codeIdx : (complete s).codeIdx = s.codeIdx := rfl
@[simp] theorem complete_nodeIdx : (complete s).nodeIdx = s.nodeIdx := rfl
@[simp] theorem complete_freq : (complete s).freq = s.freq := rfl
@[simp] theorem complete_vfreq : (complete s).vfreq = s.vfreq := rfl
@[simp] theorem complete_nodes : (complete s).nodes = s.nodes := rfl
@[simp] theorem complete_root : (complete s).root = s.root := rfl
@[simp] theorem complete_codes : (complete s).codes = s.codes := rfl
@[simp] theorem complete_q : (complete s).q = s.q := rfl
@[simp] theorem complete_nextNode : (complete s).nextNode = s.nextNode := rfl
@[simp] theorem complete_acc : (complete s).acc = s.acc := rfl
@[simp] theorem complete_pending : (complete s).pending = s.pending := rfl
@[simp] theorem complete_pendingValid : (complete s).pendingValid = s.pendingValid := rfl
@[simp] theorem complete_walk : (complete s).walk = s.walk := rfl
@[simp] theorem complete_src : (complete s).src = s.src := rfl
@[simp] theorem complete_sink : (complete s).sink = s.sink := rfl
@[simp] theorem complete_script : (complete s).script = s.script := rfl
@[simp] theorem complete_reads : (complete s).reads = s.reads := rfl
@[simp] theorem complete_draws : (complete s).draws = s.draws := rfl

end

/-! `abort` -/

section
variable (c : Cause) (w : Word) (s : State)

@[simp] theorem abort_issuedOp : (abort c w s).issuedOp = 0 := rfl
@[simp] theorem abort_curOp : (abort c w s).curOp = 0 := rfl
@[simp] theorem abort_mstep : (abort c w s).mstep = 0 := rfl
@[simp] theorem abort_phase : (abort c w s).phase = .idle := rfl
@[simp] theorem abort_busy : (abort c w s).busy = false := rfl
@[simp] theorem abort_done : (abort c w s).done = s.done := rfl
@[simp] theorem abort_err : (abort c w s).err = true := rfl
@[simp] theorem abort_overrun : (abort c w s).overrun = s.overrun := rfl
@[simp] theorem abort_treeValid : (abort c w s).treeValid = s.treeValid := rfl
@[simp] theorem abort_codesValid : (abort c w s).codesValid = s.codesValid := rfl
@[simp] theorem abort_decDone : (abort c w s).decDone = s.decDone := rfl
@[simp] theorem abort_trailPartial : (abort c w s).trailPartial = s.trailPartial := rfl
@[simp] theorem abort_ie : (abort c w s).ie = s.ie := rfl
@[simp] theorem abort_errCause : (abort c w s).errCause = c := rfl
@[simp] theorem abort_errOp : (abort c w s).errOp = s.curOp := rfl
@[simp] theorem abort_errInfo : (abort c w s).errInfo = w := rfl
@[simp] theorem abort_lastBits : (abort c w s).lastBits = s.lastBits := rfl
@[simp] theorem abort_total : (abort c w s).total = s.total := rfl
@[simp] theorem abort_inPos : (abort c w s).inPos = s.inPos := rfl
@[simp] theorem abort_outCount : (abort c w s).outCount = s.outCount := rfl
@[simp] theorem abort_freqIdx : (abort c w s).freqIdx = s.freqIdx := rfl
@[simp] theorem abort_codeIdx : (abort c w s).codeIdx = s.codeIdx := rfl
@[simp] theorem abort_nodeIdx : (abort c w s).nodeIdx = s.nodeIdx := rfl
@[simp] theorem abort_freq : (abort c w s).freq = s.freq := rfl
@[simp] theorem abort_vfreq : (abort c w s).vfreq = s.vfreq := rfl
@[simp] theorem abort_nodes : (abort c w s).nodes = s.nodes := rfl
@[simp] theorem abort_root : (abort c w s).root = s.root := rfl
@[simp] theorem abort_codes : (abort c w s).codes = s.codes := rfl
@[simp] theorem abort_q : (abort c w s).q = [] := rfl
@[simp] theorem abort_nextNode : (abort c w s).nextNode = s.nextNode := rfl
@[simp] theorem abort_acc : (abort c w s).acc = [] := rfl
@[simp] theorem abort_pending : (abort c w s).pending = s.pending := rfl
@[simp] theorem abort_pendingValid : (abort c w s).pendingValid = false := rfl
@[simp] theorem abort_walk : (abort c w s).walk = s.walk := rfl
@[simp] theorem abort_src : (abort c w s).src = s.src := rfl
@[simp] theorem abort_sink : (abort c w s).sink = s.sink := rfl
@[simp] theorem abort_script : (abort c w s).script = s.script := rfl
@[simp] theorem abort_reads : (abort c w s).reads = s.reads := rfl
@[simp] theorem abort_draws : (abort c w s).draws = s.draws := rfl

end

/-! `dropWrite` -/

section
variable  (s : State)

@[simp] theorem dropWrite_issuedOp : (dropWrite s).issuedOp = s.issuedOp := rfl
@[simp] theorem dropWrite_curOp : (dropWrite s).curOp = s.curOp := rfl
@[simp] theorem dropWrite_mstep : (dropWrite s).mstep = s.mstep := rfl
@[simp] theorem dropWrite_phase : (dropWrite s).phase = s.phase := rfl
@[simp] theorem dropWrite_busy : (dropWrite s).busy = s.busy := rfl
@[simp] theorem dropWrite_done : (dropWrite s).done = s.done := rfl
@[simp] theorem dropWrite_err : (dropWrite s).err = s.err := rfl
@[simp] theorem dropWrite_overrun : (dropWrite s).overrun = true := rfl
@[simp] theorem dropWrite_treeValid : (dropWrite s).treeValid = s.treeValid := rfl
@[simp] theorem dropWrite_codesValid : (dropWrite s).codesValid = s.codesValid := rfl
@[simp] theorem dropWrite_decDone : (dropWrite s).decDone = s.decDone := rfl
@[simp] theorem dropWrite_trailPartial : (dropWrite s).trailPartial = s.trailPartial := rfl
@[simp] theorem dropWrite_ie : (dropWrite s).ie = s.ie := rfl
@[simp] theorem dropWrite_errCause : (dropWrite s).errCause = s.errCause := rfl
@[simp] theorem dropWrite_errOp : (dropWrite s).errOp = s.errOp := rfl
@[simp] theorem dropWrite_errInfo : (dropWrite s).errInfo = s.errInfo := rfl
@[simp] theorem dropWrite_lastBits : (dropWrite s).lastBits = s.lastBits := rfl
@[simp] theorem dropWrite_total : (dropWrite s).total = s.total := rfl
@[simp] theorem dropWrite_inPos : (dropWrite s).inPos = s.inPos := rfl
@[simp] theorem dropWrite_outCount : (dropWrite s).outCount = s.outCount := rfl
@[simp] theorem dropWrite_freqIdx : (dropWrite s).freqIdx = s.freqIdx := rfl
@[simp] theorem dropWrite_codeIdx : (dropWrite s).codeIdx = s.codeIdx := rfl
@[simp] theorem dropWrite_nodeIdx : (dropWrite s).nodeIdx = s.nodeIdx := rfl
@[simp] theorem dropWrite_freq : (dropWrite s).freq = s.freq := rfl
@[simp] theorem dropWrite_vfreq : (dropWrite s).vfreq = s.vfreq := rfl
@[simp] theorem dropWrite_nodes : (dropWrite s).nodes = s.nodes := rfl
@[simp] theorem dropWrite_root : (dropWrite s).root = s.root := rfl
@[simp] theorem dropWrite_codes : (dropWrite s).codes = s.codes := rfl
@[simp] theorem dropWrite_q : (dropWrite s).q = s.q := rfl
@[simp] theorem dropWrite_nextNode : (dropWrite s).nextNode = s.nextNode := rfl
@[simp] theorem dropWrite_acc : (dropWrite s).acc = s.acc := rfl
@[simp] theorem dropWrite_pending : (dropWrite s).pending = s.pending := rfl
@[simp] theorem dropWrite_pendingValid : (dropWrite s).pendingValid = s.pendingValid := rfl
@[simp] theorem dropWrite_walk : (dropWrite s).walk = s.walk := rfl
@[simp] theorem dropWrite_src : (dropWrite s).src = s.src := rfl
@[simp] theorem dropWrite_sink : (dropWrite s).sink = s.sink := rfl
@[simp] theorem dropWrite_script : (dropWrite s).script = s.script := rfl
@[simp] theorem dropWrite_reads : (dropWrite s).reads = s.reads := rfl
@[simp] theorem dropWrite_draws : (dropWrite s).draws = s.draws := rfl

end

/-! `goTo` -/

section
variable (p : Phase) (s : State)

@[simp] theorem goTo_issuedOp : (goTo p s).issuedOp = s.issuedOp := rfl
@[simp] theorem goTo_curOp : (goTo p s).curOp = s.curOp := rfl
@[simp] theorem goTo_mstep : (goTo p s).mstep = s.mstep := rfl
@[simp] theorem goTo_phase : (goTo p s).phase = p := rfl
@[simp] theorem goTo_busy : (goTo p s).busy = s.busy := rfl
@[simp] theorem goTo_done : (goTo p s).done = s.done := rfl
@[simp] theorem goTo_err : (goTo p s).err = s.err := rfl
@[simp] theorem goTo_overrun : (goTo p s).overrun = s.overrun := rfl
@[simp] theorem goTo_treeValid : (goTo p s).treeValid = s.treeValid := rfl
@[simp] theorem goTo_codesValid : (goTo p s).codesValid = s.codesValid := rfl
@[simp] theorem goTo_decDone : (goTo p s).decDone = s.decDone := rfl
@[simp] theorem goTo_trailPartial : (goTo p s).trailPartial = s.trailPartial := rfl
@[simp] theorem goTo_ie : (goTo p s).ie = s.ie := rfl
@[simp] theorem goTo_errCause : (goTo p s).errCause = s.errCause := rfl
@[simp] theorem goTo_errOp : (goTo p s).errOp = s.errOp := rfl
@[simp] theorem goTo_errInfo : (goTo p s).errInfo = s.errInfo := rfl
@[simp] theorem goTo_lastBits : (goTo p s).lastBits = s.lastBits := rfl
@[simp] theorem goTo_total : (goTo p s).total = s.total := rfl
@[simp] theorem goTo_inPos : (goTo p s).inPos = s.inPos := rfl
@[simp] theorem goTo_outCount : (goTo p s).outCount = s.outCount := rfl
@[simp] theorem goTo_freqIdx : (goTo p s).freqIdx = s.freqIdx := rfl
@[simp] theorem goTo_codeIdx : (goTo p s).codeIdx = s.codeIdx := rfl
@[simp] theorem goTo_nodeIdx : (goTo p s).nodeIdx = s.nodeIdx := rfl
@[simp] theorem goTo_freq : (goTo p s).freq = s.freq := rfl
@[simp] theorem goTo_vfreq : (goTo p s).vfreq = s.vfreq := rfl
@[simp] theorem goTo_nodes : (goTo p s).nodes = s.nodes := rfl
@[simp] theorem goTo_root : (goTo p s).root = s.root := rfl
@[simp] theorem goTo_codes : (goTo p s).codes = s.codes := rfl
@[simp] theorem goTo_q : (goTo p s).q = s.q := rfl
@[simp] theorem goTo_nextNode : (goTo p s).nextNode = s.nextNode := rfl
@[simp] theorem goTo_acc : (goTo p s).acc = s.acc := rfl
@[simp] theorem goTo_pending : (goTo p s).pending = s.pending := rfl
@[simp] theorem goTo_pendingValid : (goTo p s).pendingValid = s.pendingValid := rfl
@[simp] theorem goTo_walk : (goTo p s).walk = s.walk := rfl
@[simp] theorem goTo_src : (goTo p s).src = s.src := rfl
@[simp] theorem goTo_sink : (goTo p s).sink = s.sink := rfl
@[simp] theorem goTo_script : (goTo p s).script = s.script := rfl
@[simp] theorem goTo_reads : (goTo p s).reads = s.reads := rfl
@[simp] theorem goTo_draws : (goTo p s).draws = s.draws := rfl

end

/-! `clearAllValid` -/

section
variable  (s : State)

@[simp] theorem clearAllValid_issuedOp : (clearAllValid s).issuedOp = s.issuedOp := rfl
@[simp] theorem clearAllValid_curOp : (clearAllValid s).curOp = s.curOp := rfl
@[simp] theorem clearAllValid_mstep : (clearAllValid s).mstep = s.mstep := rfl
@[simp] theorem clearAllValid_phase : (clearAllValid s).phase = s.phase := rfl
@[simp] theorem clearAllValid_busy : (clearAllValid s).busy = s.busy := rfl
@[simp] theorem clearAllValid_done : (clearAllValid s).done = s.done := rfl
@[simp] theorem clearAllValid_err : (clearAllValid s).err = s.err := rfl
@[simp] theorem clearAllValid_overrun : (clearAllValid s).overrun = s.overrun := rfl
@[simp] theorem clearAllValid_treeValid : (clearAllValid s).treeValid = false := rfl
@[simp] theorem clearAllValid_codesValid : (clearAllValid s).codesValid = false := rfl
@[simp] theorem clearAllValid_decDone : (clearAllValid s).decDone = false := rfl
@[simp] theorem clearAllValid_trailPartial : (clearAllValid s).trailPartial = s.trailPartial := rfl
@[simp] theorem clearAllValid_ie : (clearAllValid s).ie = s.ie := rfl
@[simp] theorem clearAllValid_errCause : (clearAllValid s).errCause = s.errCause := rfl
@[simp] theorem clearAllValid_errOp : (clearAllValid s).errOp = s.errOp := rfl
@[simp] theorem clearAllValid_errInfo : (clearAllValid s).errInfo = s.errInfo := rfl
@[simp] theorem clearAllValid_lastBits : (clearAllValid s).lastBits = s.lastBits := rfl
@[simp] theorem clearAllValid_total : (clearAllValid s).total = s.total := rfl
@[simp] theorem clearAllValid_inPos : (clearAllValid s).inPos = s.inPos := rfl
@[simp] theorem clearAllValid_outCount : (clearAllValid s).outCount = s.outCount := rfl
@[simp] theorem clearAllValid_freqIdx : (clearAllValid s).freqIdx = s.freqIdx := rfl
@[simp] theorem clearAllValid_codeIdx : (clearAllValid s).codeIdx = s.codeIdx := rfl
@[simp] theorem clearAllValid_nodeIdx : (clearAllValid s).nodeIdx = s.nodeIdx := rfl
@[simp] theorem clearAllValid_freq : (clearAllValid s).freq = s.freq := rfl
@[simp] theorem clearAllValid_vfreq : (clearAllValid s).vfreq = s.vfreq := rfl
@[simp] theorem clearAllValid_nodes : (clearAllValid s).nodes = s.nodes := rfl
@[simp] theorem clearAllValid_root : (clearAllValid s).root = s.root := rfl
@[simp] theorem clearAllValid_codes : (clearAllValid s).codes = s.codes := rfl
@[simp] theorem clearAllValid_q : (clearAllValid s).q = s.q := rfl
@[simp] theorem clearAllValid_nextNode : (clearAllValid s).nextNode = s.nextNode := rfl
@[simp] theorem clearAllValid_acc : (clearAllValid s).acc = s.acc := rfl
@[simp] theorem clearAllValid_pending : (clearAllValid s).pending = s.pending := rfl
@[simp] theorem clearAllValid_pendingValid : (clearAllValid s).pendingValid = s.pendingValid := rfl
@[simp] theorem clearAllValid_walk : (clearAllValid s).walk = s.walk := rfl
@[simp] theorem clearAllValid_src : (clearAllValid s).src = s.src := rfl
@[simp] theorem clearAllValid_sink : (clearAllValid s).sink = s.sink := rfl
@[simp] theorem clearAllValid_script : (clearAllValid s).script = s.script := rfl
@[simp] theorem clearAllValid_reads : (clearAllValid s).reads = s.reads := rfl
@[simp] theorem clearAllValid_draws : (clearAllValid s).draws = s.draws := rfl

end

/-! `clearTreeValid` -/

section
variable  (s : State)

@[simp] theorem clearTreeValid_issuedOp : (clearTreeValid s).issuedOp = s.issuedOp := rfl
@[simp] theorem clearTreeValid_curOp : (clearTreeValid s).curOp = s.curOp := rfl
@[simp] theorem clearTreeValid_mstep : (clearTreeValid s).mstep = s.mstep := rfl
@[simp] theorem clearTreeValid_phase : (clearTreeValid s).phase = s.phase := rfl
@[simp] theorem clearTreeValid_busy : (clearTreeValid s).busy = s.busy := rfl
@[simp] theorem clearTreeValid_done : (clearTreeValid s).done = s.done := rfl
@[simp] theorem clearTreeValid_err : (clearTreeValid s).err = s.err := rfl
@[simp] theorem clearTreeValid_overrun : (clearTreeValid s).overrun = s.overrun := rfl
@[simp] theorem clearTreeValid_treeValid : (clearTreeValid s).treeValid = false := rfl
@[simp] theorem clearTreeValid_codesValid : (clearTreeValid s).codesValid = false := rfl
@[simp] theorem clearTreeValid_decDone : (clearTreeValid s).decDone = s.decDone := rfl
@[simp] theorem clearTreeValid_trailPartial : (clearTreeValid s).trailPartial = s.trailPartial := rfl
@[simp] theorem clearTreeValid_ie : (clearTreeValid s).ie = s.ie := rfl
@[simp] theorem clearTreeValid_errCause : (clearTreeValid s).errCause = s.errCause := rfl
@[simp] theorem clearTreeValid_errOp : (clearTreeValid s).errOp = s.errOp := rfl
@[simp] theorem clearTreeValid_errInfo : (clearTreeValid s).errInfo = s.errInfo := rfl
@[simp] theorem clearTreeValid_lastBits : (clearTreeValid s).lastBits = s.lastBits := rfl
@[simp] theorem clearTreeValid_total : (clearTreeValid s).total = s.total := rfl
@[simp] theorem clearTreeValid_inPos : (clearTreeValid s).inPos = s.inPos := rfl
@[simp] theorem clearTreeValid_outCount : (clearTreeValid s).outCount = s.outCount := rfl
@[simp] theorem clearTreeValid_freqIdx : (clearTreeValid s).freqIdx = s.freqIdx := rfl
@[simp] theorem clearTreeValid_codeIdx : (clearTreeValid s).codeIdx = s.codeIdx := rfl
@[simp] theorem clearTreeValid_nodeIdx : (clearTreeValid s).nodeIdx = s.nodeIdx := rfl
@[simp] theorem clearTreeValid_freq : (clearTreeValid s).freq = s.freq := rfl
@[simp] theorem clearTreeValid_vfreq : (clearTreeValid s).vfreq = s.vfreq := rfl
@[simp] theorem clearTreeValid_nodes : (clearTreeValid s).nodes = s.nodes := rfl
@[simp] theorem clearTreeValid_root : (clearTreeValid s).root = s.root := rfl
@[simp] theorem clearTreeValid_codes : (clearTreeValid s).codes = s.codes := rfl
@[simp] theorem clearTreeValid_q : (clearTreeValid s).q = s.q := rfl
@[simp] theorem clearTreeValid_nextNode : (clearTreeValid s).nextNode = s.nextNode := rfl
@[simp] theorem clearTreeValid_acc : (clearTreeValid s).acc = s.acc := rfl
@[simp] theorem clearTreeValid_pending : (clearTreeValid s).pending = s.pending := rfl
@[simp] theorem clearTreeValid_pendingValid : (clearTreeValid s).pendingValid = s.pendingValid := rfl
@[simp] theorem clearTreeValid_walk : (clearTreeValid s).walk = s.walk := rfl
@[simp] theorem clearTreeValid_src : (clearTreeValid s).src = s.src := rfl
@[simp] theorem clearTreeValid_sink : (clearTreeValid s).sink = s.sink := rfl
@[simp] theorem clearTreeValid_script : (clearTreeValid s).script = s.script := rfl
@[simp] theorem clearTreeValid_reads : (clearTreeValid s).reads = s.reads := rfl
@[simp] theorem clearTreeValid_draws : (clearTreeValid s).draws = s.draws := rfl

end

/-! `withForest` -/

section
variable (f : Forest) (s : State)

@[simp] theorem withForest_issuedOp : (withForest f s).issuedOp = s.issuedOp := rfl
@[simp] theorem withForest_curOp : (withForest f s).curOp = s.curOp := rfl
@[simp] theorem withForest_mstep : (withForest f s).mstep = s.mstep := rfl
@[simp] theorem withForest_phase : (withForest f s).phase = s.phase := rfl
@[simp] theorem withForest_busy : (withForest f s).busy = s.busy := rfl
@[simp] theorem withForest_done : (withForest f s).done = s.done := rfl
@[simp] theorem withForest_err : (withForest f s).err = s.err := rfl
@[simp] theorem withForest_overrun : (withForest f s).overrun = s.overrun := rfl
@[simp] theorem withForest_treeValid : (withForest f s).treeValid = s.treeValid := rfl
@[simp] theorem withForest_codesValid : (withForest f s).codesValid = s.codesValid := rfl
@[simp] theorem withForest_decDone : (withForest f s).decDone = s.decDone := rfl
@[simp] theorem withForest_trailPartial : (withForest f s).trailPartial = s.trailPartial := rfl
@[simp] theorem withForest_ie : (withForest f s).ie = s.ie := rfl
@[simp] theorem withForest_errCause : (withForest f s).errCause = s.errCause := rfl
@[simp] theorem withForest_errOp : (withForest f s).errOp = s.errOp := rfl
@[simp] theorem withForest_errInfo : (withForest f s).errInfo = s.errInfo := rfl
@[simp] theorem withForest_lastBits : (withForest f s).lastBits = s.lastBits := rfl
@[simp] theorem withForest_total : (withForest f s).total = s.total := rfl
@[simp] theorem withForest_inPos : (withForest f s).inPos = s.inPos := rfl
@[simp] theorem withForest_outCount : (withForest f s).outCount = s.outCount := rfl
@[simp] theorem withForest_freqIdx : (withForest f s).freqIdx = s.freqIdx := rfl
@[simp] theorem withForest_codeIdx : (withForest f s).codeIdx = s.codeIdx := rfl
@[simp] theorem withForest_nodeIdx : (withForest f s).nodeIdx = s.nodeIdx := rfl
@[simp] theorem withForest_freq : (withForest f s).freq = s.freq := rfl
@[simp] theorem withForest_vfreq : (withForest f s).vfreq = s.vfreq := rfl
@[simp] theorem withForest_nodes : (withForest f s).nodes = f.nodes := rfl
@[simp] theorem withForest_root : (withForest f s).root = s.root := rfl
@[simp] theorem withForest_codes : (withForest f s).codes = s.codes := rfl
@[simp] theorem withForest_q : (withForest f s).q = f.q := rfl
@[simp] theorem withForest_nextNode : (withForest f s).nextNode = f.nextNode := rfl
@[simp] theorem withForest_acc : (withForest f s).acc = s.acc := rfl
@[simp] theorem withForest_pending : (withForest f s).pending = s.pending := rfl
@[simp] theorem withForest_pendingValid : (withForest f s).pendingValid = s.pendingValid := rfl
@[simp] theorem withForest_walk : (withForest f s).walk = s.walk := rfl
@[simp] theorem withForest_src : (withForest f s).src = s.src := rfl
@[simp] theorem withForest_sink : (withForest f s).sink = s.sink := rfl
@[simp] theorem withForest_script : (withForest f s).script = s.script := rfl
@[simp] theorem withForest_reads : (withForest f s).reads = s.reads := rfl
@[simp] theorem withForest_draws : (withForest f s).draws = s.draws := rfl

end

/-! `finishElement`: either the next element starts or the command completes; no other field changes -/

section
variable (s : State)

@[simp] theorem finishElement_err : (finishElement s).err = s.err := by unfold finishElement; split <;> rfl
@[simp] theorem finishElement_overrun : (finishElement s).overrun = s.overrun := by unfold finishElement; split <;> rfl
@[simp] theorem finishElement_treeValid : (finishElement s).treeValid = s.treeValid := by unfold finishElement; split <;> rfl
@[simp] theorem finishElement_codesValid : (finishElement s).codesValid = s.codesValid := by unfold finishElement; split <;> rfl
@[simp] theorem finishElement_decDone : (finishElement s).decDone = s.decDone := by unfold finishElement; split <;> rfl
@[simp] theorem finishElement_trailPartial : (finishElement s).trailPartial = s.trailPartial := by unfold finishElement; split <;> rfl
@[simp] theorem finishElement_ie : (finishElement s).ie = s.ie := by unfold finishElement; split <;> rfl
@[simp] theorem finishElement_errCause : (finishElement s).errCause = s.errCause := by unfold finishElement; split <;> rfl
@[simp] theorem finishElement_errOp : (finishElement s).errOp = s.errOp := by unfold finishElement; split <;> rfl
@[simp] theorem finishElement_errInfo : (finishElement s).errInfo = s.errInfo := by unfold finishElement; split <;> rfl
@[simp] theorem finishElement_lastBits : (finishElement s).lastBits = s.lastBits := by unfold finishElement; split <;> rfl
@[simp] theorem finishElement_total : (finishElement s).total = s.total := by unfold finishElement; split <;> rfl
@[simp] theorem finishElement_inPos : (finishElement s).inPos = s.inPos := by unfold finishElement; split <;> rfl
@[simp] theorem finishElement_outCount : (finishElement s).outCount = s.outCount := by unfold finishElement; split <;> rfl
@[simp] theorem finishElement_freqIdx : (finishElement s).freqIdx = s.freqIdx := by unfold finishElement; split <;> rfl
@[simp] theorem finishElement_codeIdx : (finishElement s).codeIdx = s.codeIdx := by unfold finishElement; split <;> rfl
@[simp] theorem finishElement_nodeIdx : (finishElement s).nodeIdx = s.nodeIdx := by unfold finishElement; split <;> rfl
@[simp] theorem finishElement_freq : (finishElement s).freq = s.freq := by unfold finishElement; split <;> rfl
@[simp] theorem finishElement_vfreq : (finishElement s).vfreq = s.vfreq := by unfold finishElement; split <;> rfl
@[simp] theorem finishElement_nodes : (finishElement s).nodes = s.nodes := by unfold finishElement; split <;> rfl
@[simp] theorem finishElement_root : (finishElement s).root = s.root := by unfold finishElement; split <;> rfl
@[simp] theorem finishElement_codes : (finishElement s).codes = s.codes := by unfold finishElement; split <;> rfl
@[simp] theorem finishElement_q : (finishElement s).q = s.q := by unfold finishElement; split <;> rfl
@[simp] theorem finishElement_nextNode : (finishElement s).nextNode = s.nextNode := by unfold finishElement; split <;> rfl
@[simp] theorem finishElement_acc : (finishElement s).acc = s.acc := by unfold finishElement; split <;> rfl
@[simp] theorem finishElement_pending : (finishElement s).pending = s.pending := by unfold finishElement; split <;> rfl
@[simp] theorem finishElement_pendingValid : (finishElement s).pendingValid = s.pendingValid := by unfold finishElement; split <;> rfl
@[simp] theorem finishElement_walk : (finishElement s).walk = s.walk := by unfold finishElement; split <;> rfl
@[simp] theorem finishElement_src : (finishElement s).src = s.src := by unfold finishElement; split <;> rfl
@[simp] theorem finishElement_sink : (finishElement s).sink = s.sink := by unfold finishElement; split <;> rfl
@[simp] theorem finishElement_script : (finishElement s).script = s.script := by unfold finishElement; split <;> rfl
@[simp] theorem finishElement_reads : (finishElement s).reads = s.reads := by unfold finishElement; split <;> rfl
@[simp] theorem finishElement_draws : (finishElement s).draws = s.draws := by unfold finishElement; split <;> rfl

end

end Sys2Proof.Machine
end

