-- ==== Sys2Proof/Laws/Ops.lean ====
section
/-! SUPPORT. For each shared operation, what it can do, said once: cite these instead of unfolding the operation. -/

namespace Sys2Proof.Machine

/-! ### Tables -/

@[simp] theorem getAt_setAt {α : Type} (t : Vector α 256) (i j : Byte) (v : α) :
    getAt (setAt t i v) j = if i = j then v else getAt t j := by
  simp only [getAt, setAt, Vector.getElem_set, BitVec.toNat_inj]

@[simp] theorem getAt_replicate {α : Type} (v : α) (i : Byte) : getAt (Vector.replicate 256 v) i = v := by
  simp [getAt]

theorem vector_ext_getAt {α : Type} {t u : Vector α 256} (h : ∀ i, getAt t i = getAt u i) : t = u := by
  ext n hn
  have := h (BitVec.ofNat 8 n)
  simpa [getAt, Nat.mod_eq_of_lt hn] using this

@[simp] theorem leafOf_val (s : Byte) : (leafOf s).val = s.toNat := rfl

@[simp] theorem symbolOf_leafOf (s : Byte) : symbolOf (leafOf s) = s := by simp [symbolOf]

theorem leafOf_symbolOf {n : NodeIdx} (h : n.val < 256) : leafOf (symbolOf n) = n := by
  apply Fin.ext
  simp [symbolOf, Nat.mod_eq_of_lt h]

@[simp] theorem symbols_length : symbols.length = 256 := by simp [symbols]

@[simp] theorem mem_symbols (s : Byte) : s ∈ symbols :=
  List.mem_map.2 ⟨s.toNat, List.mem_range.2 s.isLt, by simp⟩

@[simp] theorem leaves_length : leaves.length = 256 := by simp [leaves]

theorem mem_leaves (n : NodeIdx) : n ∈ leaves ↔ n.val < 256 := by
  constructor
  · intro h
    obtain ⟨s, -, rfl⟩ := List.mem_map.1 h
    exact s.isLt
  · intro h
    exact List.mem_map.2 ⟨symbolOf n, mem_symbols _, leafOf_symbolOf h⟩

@[simp] theorem codeBits_length (c : Code) : (codeBits c).length = c.len.toNat := by simp [codeBits]

/-! ### Streams -/

theorem inRead_eos {s : State} (h : unread s = []) : inRead s = (none, s) := by
  unfold inRead
  rw [List.getElem?_eq_none (List.drop_eq_nil_iff.1 h)]

theorem inRead_byte {s : State} {b : Byte} {rest : List Byte} (h : unread s = b :: rest) :
    inRead s = (some b, { s with inPos := s.inPos + 1 }) := by
  have hb : s.src[s.inPos]? = some b := by
    have := List.getElem?_drop (xs := s.src) (i := s.inPos) (j := 0)
    rw [show List.drop s.inPos s.src = b :: rest from h] at this
    simpa using this.symm
  unfold inRead
  rw [hb]

theorem unread_advance {s : State} {b : Byte} {rest : List Byte} (h : unread s = b :: rest) :
    List.drop (s.inPos + 1) s.src = rest := by
  rw [← List.drop_drop, show List.drop s.inPos s.src = b :: rest from h]
  rfl

/-! ### Running -/

@[simp] theorem andThen_next (s : State) (k : State → Result) : andThen (.next s) k = k s := rfl
@[simp] theorem andThen_fault (f : Fault) (k : State → Result) : andThen (.fault f) k = .fault f := rfl
@[simp] theorem andThen_refused (q : Refusal) (k : State → Result) : andThen (.refused q) k = .refused q := rfl

theorem andThen_eq_next {r : Result} {k : State → Result} {t : State} :
    andThen r k = .next t ↔ ∃ s, r = .next s ∧ k s = .next t := by
  cases r <;> simp

theorem andThen_assoc (r : Result) (k l : State → Result) :
    andThen (andThen r k) l = andThen r fun s => andThen (k s) l := by
  cases r <;> rfl

@[simp] theorem require_set (m : Word) (k : State → Result) (s : State) : require true m k s = k s := rfl
@[simp] theorem require_clear (m : Word) (k : State → Result) (s : State) :
    require false m k s = .next (abort .sequence m s) := rfl

@[simp] theorem runElements_nil (s : State) : runElements [] s = .next s := rfl

theorem runElements_cons_next {body : State → Result} {rest : List (State → Result)} {s t : State}
    (h : body s = .next t) :
    runElements (body :: rest) s = if t.busy then runElements rest t else .next t := by
  simp [runElements, h]

/-- The whole of a primitive command: its body from the accepted state. -/
theorem runElements_single (body : State → Result) (s : State) : runElements [body] s = body s := by
  unfold runElements
  cases h : body s with
  | next t => simp
  | fault f => rfl
  | refused q => rfl

theorem issue_busy {s : State} (h : s.busy = true) (i : Instr) (bodies : List (State → Result)) :
    issue i bodies s = .next (dropWrite s) := by simp [issue, h]

theorem issue_idle {s : State} (h : s.busy = false) (i : Instr) (bodies : List (State → Result)) :
    issue i bodies s = runElements bodies (accept i s) := by simp [issue, h]

/-! ### The end of an element -/

/-- Where an element's end leads: the next element of a macro, or completion. -/
theorem finishElement_cases (s : State) :
    (∃ e rest, laterElements s = e :: rest ∧ finishElement s = enterElement e { s with mstep := s.mstep + 1 }) ∨
    (laterElements s = [] ∧ finishElement s = complete s) := by
  unfold finishElement
  cases h : laterElements s with
  | nil => exact .inr ⟨rfl, rfl⟩
  | cons e rest => exact .inl ⟨e, rest, rfl, rfl⟩

theorem finishElement_last {s : State} (h : laterElements s = []) : finishElement s = complete s := by
  simp [finishElement, h]

@[simp] theorem instrOfOpcode_opcodeOf (i : Instr) : instrOfOpcode (opcodeOf i) = some i := by
  cases i <;> decide

/-- What is left of a command's expansion is read off ISSUED_OP and MSTEP alone. -/
theorem laterElements_eq {s : State} {i : Instr} {n : Nat} (hi : s.issuedOp = opcodeOf i)
    (hn : s.mstep.toNat = n) : laterElements s = (expansion i).drop (n + 1) := by
  simp [laterElements, hi, hn]

/-! ### The micro-operations -/

theorem countByte_cases (b : Byte) (s : State) :
    (s.total = 0xFFFFFFFF ∧ countByte b s = abort .inputTooLong (b.setWidth 32) s) ∨
    (s.total ≠ 0xFFFFFFFF ∧
      countByte b s = { s with freq := setAt s.freq b (getAt s.freq b + 1), total := s.total + 1 }) := by
  unfold countByte
  split
  · exact .inl ⟨‹_›, rfl⟩
  · exact .inr ⟨‹_›, rfl⟩

/-- One bit of the walk: off the tree, onto an internal node, or onto a leaf. -/
theorem walkBit_cases (bit : Bool) (s : State) :
    let n := if bit then s.nodes[s.walk].right else s.nodes[s.walk].left
    (s.nodes[s.walk].leaf = true ∧
      walkBit bit s = releaseWalk (abort .walkOffTree (BitVec.ofNat 32 s.walk.val) s)) ∨
    (s.nodes[s.walk].leaf = false ∧ s.nodes[n].leaf = true ∧ walkBit bit s = emitSymbol n s) ∨
    (s.nodes[s.walk].leaf = false ∧ s.nodes[n].leaf = false ∧ walkBit bit s = { s with walk := n }) := by
  intro n
  unfold walkBit
  cases hw : s.nodes[s.walk].leaf with
  | true => exact .inl ⟨rfl, by simp⟩
  | false =>
    cases hn : s.nodes[n].leaf with
    | true => exact .inr (.inl ⟨rfl, rfl, by simpa [n] using fun h => absurd hn (by simp [n, h])⟩)
    | false => exact .inr (.inr ⟨rfl, rfl, by simpa [n] using fun h => absurd hn (by simp [n, h])⟩)

/-! ### The queue -/

theorem keyLt_iff (nodes : Vector Node 511) (a b : NodeIdx) :
    keyLt nodes a b = true ↔
      nodes[a].weight.toNat < nodes[b].weight.toNat ∨ (nodes[a].weight = nodes[b].weight ∧ a.val < b.val) := by
  simp [keyLt]

theorem keyLt_trans {nodes : Vector Node 511} {a b c : NodeIdx} (h : keyLt nodes a b = true)
    (h' : keyLt nodes b c = true) : keyLt nodes a c = true := by
  rw [keyLt_iff] at *
  rcases h with h | ⟨h, g⟩ <;> rcases h' with h' | ⟨h', g'⟩
  · exact .inl (by omega)
  · exact .inl (h' ▸ h)
  · exact .inl (h ▸ h')
  · exact .inr ⟨h.trans h', by omega⟩

theorem keyLt_total {nodes : Vector Node 511} {a b : NodeIdx} (h : a ≠ b) :
    keyLt nodes a b = true ∨ keyLt nodes b a = true := by
  simp only [keyLt_iff]
  have hab : a.val ≠ b.val := fun e => h (Fin.ext e)
  by_cases hw : nodes[a].weight = nodes[b].weight
  · rcases Nat.lt_or_gt_of_ne hab with g | g
    · exact .inl (.inr ⟨hw, g⟩)
    · exact .inr (.inr ⟨hw.symm, g⟩)
  · have : nodes[a].weight.toNat ≠ nodes[b].weight.toNat := fun e => hw (BitVec.eq_of_toNat_eq e)
    omega

theorem argmin_cons (nodes : Vector Node 511) (m n : NodeIdx) (q : List NodeIdx) :
    argmin nodes m (n :: q) = argmin nodes (if keyLt nodes n m = true then n else m) q := rfl

theorem argmin_mem (nodes : Vector Node 511) (m : NodeIdx) (q : List NodeIdx) : argmin nodes m q ∈ m :: q := by
  induction q generalizing m with
  | nil => simp [argmin]
  | cons n q ih =>
    rw [argmin_cons]
    have h := ih (if keyLt nodes n m = true then n else m)
    by_cases hk : keyLt nodes n m = true
    · rw [if_pos hk] at h ⊢
      exact List.mem_cons_of_mem _ h
    · rw [if_neg hk] at h ⊢
      rcases List.mem_cons.1 h with h | h
      · rw [h]; exact List.mem_cons_self
      · exact List.mem_cons_of_mem _ (List.mem_cons_of_mem _ h)

/-- The least of a candidate `m` and a list comes before whatever `m` comes before. -/
theorem argmin_before {nodes : Vector Node 511} {m x : NodeIdx} (q : List NodeIdx) (h : keyLt nodes m x = true)
    (least : ∀ y ∈ m :: q, y ≠ argmin nodes m q → keyLt nodes (argmin nodes m q) y = true) :
    keyLt nodes (argmin nodes m q) x = true := by
  by_cases hm : m = argmin nodes m q
  · rwa [← hm]
  · exact keyLt_trans (least m List.mem_cons_self hm) h

theorem argmin_least (nodes : Vector Node 511) (m : NodeIdx) (q : List NodeIdx) :
    ∀ x ∈ m :: q, x ≠ argmin nodes m q → keyLt nodes (argmin nodes m q) x = true := by
  induction q generalizing m with
  | nil => simp [argmin]
  | cons n q ih =>
    rw [argmin_cons]
    intro x hx hne
    by_cases hk : keyLt nodes n m = true
    · rw [if_pos hk] at hne ⊢
      rcases List.mem_cons.1 hx with rfl | hx
      · exact argmin_before q hk (ih n)
      · exact ih n x hx hne
    · rw [if_neg hk] at hne ⊢
      rcases List.mem_cons.1 hx with rfl | hx
      · exact ih _ _ List.mem_cons_self hne
      · rcases List.mem_cons.1 hx with rfl | hx
        · by_cases hm : x = m
          · subst hm; exact ih _ _ List.mem_cons_self hne
          · exact argmin_before q ((keyLt_total hm).resolve_left hk) (ih m)
        · exact ih m x (List.mem_cons_of_mem _ hx) hne

/-- Popping: the least key leaves the queue, and nothing else does (R144, R145). -/
theorem popMin_some {nodes : Vector Node 511} {q q' : List NodeIdx} {m : NodeIdx} (h : popMin nodes q = some (m, q')) :
    m ∈ q ∧ q' = q.erase m ∧ ∀ x ∈ q, x ≠ m → keyLt nodes m x = true := by
  cases q with
  | nil => simp [popMin] at h
  | cons n q =>
    simp only [popMin, Option.some.injEq, Prod.mk.injEq] at h
    obtain ⟨rfl, rfl⟩ := h
    exact ⟨argmin_mem nodes n q, rfl, argmin_least nodes n q⟩

theorem popMin_isSome {nodes : Vector Node 511} {q : List NodeIdx} (h : q ≠ []) : ∃ m, popMin nodes q = some (m, q.erase m) := by
  cases q with
  | nil => exact absurd rfl h
  | cons n q => exact ⟨_, rfl⟩

/-- What one merge can do (R145): with two nodes in Q and a free node, the two least of Q become the children of
node NEXT. -/
theorem mergeOnce_eq {f : Forest} (h2 : 2 ≤ f.q.length) (hn : f.nextNode.toNat < 511) :
    ∃ a b, popMin f.nodes f.q = some (a, f.q.erase a) ∧
      popMin f.nodes (f.q.erase a) = some (b, (f.q.erase a).erase b) ∧
      mergeOnce f =
        { nodes := f.nodes.set f.nextNode.toNat (mergeNode f.nodes a b) hn
          q := (f.q.erase a).erase b ++ [⟨f.nextNode.toNat, hn⟩], nextNode := f.nextNode + 1 } := by
  obtain ⟨a, ha⟩ := popMin_isSome (nodes := f.nodes) (q := f.q) (by rintro h; simp [h] at h2)
  have hlen : (f.q.erase a).length = f.q.length - 1 := List.length_erase_of_mem (popMin_some ha).1
  obtain ⟨b, hb⟩ := popMin_isSome (nodes := f.nodes) (q := f.q.erase a) (by rintro h; simp [h] at hlen; omega)
  exact ⟨a, b, ha, hb, by simp [mergeOnce, ha, hb, hn]⟩

/-! ### The register window -/

/-- What a host read of a register does (R38): the register's word goes to the host. -/
theorem hostRead_reg {off : Nat} {r : Reg} (h : supportedOffset off = true) (hr : regAt off = some r) (s : State) :
    hostRead off s =
      .next { (readReg r s).2 with reads := (readReg r s).2.reads ++ [(off, (readReg r s).1)] } := by
  simp [hostRead, h, hr]

/-- What a host write of a register does (R38). -/
theorem hostWrite_reg {off : Nat} {r : Reg} (h : supportedOffset off = true) (hr : regAt off = some r) (v : Word)
    (s : State) : hostWrite off v s = .next (writeReg r v s) := by
  simp [hostWrite, h, hr]

@[simp] theorem guarded_known (w : Word) (s : State) : guarded true w s = (w, s) := rfl

@[simp] theorem readable_eq (w : Word) (s : State) : readable w s = (w, s) := rfl

/-! ### The step -/

theorem step_noMove {s : State} (h : s.script = []) : step s = microStep s := by simp [step, nextMove, h]

theorem step_move {s : State} {m : HostMove} {rest : List HostMove} (h : s.script = m :: rest) :
    step s = hostMove m { s with script := rest } := by simp [step, nextMove, h]

/-- What a step can do: the next move of the script, or a micro-step. -/
theorem step_cases (s : State) :
    (s.script = [] ∧ step s = microStep s) ∨
    ∃ m rest, s.script = m :: rest ∧ step s = hostMove m { s with script := rest } := by
  cases h : s.script with
  | nil => exact .inl ⟨rfl, step_noMove h⟩
  | cons m rest => exact .inr ⟨m, rest, rfl, step_move h⟩

theorem microStep_idle {s : State} (h : s.busy = false) : microStep s = .next s := by simp [microStep, h]

theorem microStep_busy {s : State} (h : s.busy = true) : microStep s = runningStep s := by simp [microStep, h]

theorem microSteps_add (j k : Nat) (s : State) : microSteps (j + k) s = andThen (microSteps j s) (microSteps k) := by
  induction j generalizing s with
  | zero => simp [microSteps]
  | succ j ih =>
    rw [Nat.succ_add]
    simp only [microSteps, andThen_assoc]
    congr
    funext t
    exact ih t

theorem microSteps_idle {s : State} (h : s.busy = false) (k : Nat) : microSteps k s = .next s := by
  induction k with
  | zero => rfl
  | succ k ih => simp [microSteps, microStep_idle h, ih]

end Sys2Proof.Machine
end

