-- ==== Sys2Proof/Laws/PerInstr.lean ====
section
/-! SUPPORT. The family `Encoding`: what holds of every command as syntax. -/

/-- The command's word is legal (30_encoding.md R101): RSV is zero and its opcode is not reserved. -/
def Sys2Proof.Laws.Encoding.Statement (i : Sys2Proof.Instr) : Prop :=
  Sys2Proof.wordWellFormed (Sys2Proof.encode i) = true

namespace Sys2Proof.Laws.Encoding

theorem nop : Statement .nop := by unfold Statement; decide
theorem reset : Statement .reset := by unfold Statement; decide
theorem rewind : Statement .rewind := by unfold Statement; decide
theorem count : Statement .count := by unfold Statement; decide
theorem buildTree : Statement .buildTree := by unfold Statement; decide
theorem deriveCodes : Statement .deriveCodes := by unfold Statement; decide
theorem writeHeader : Statement .writeHeader := by unfold Statement; decide
theorem encodeBody : Statement .encodeBody := by unfold Statement; decide
theorem encode : Statement .encode := by unfold Statement; decide
theorem readHeader : Statement .readHeader := by unfold Statement; decide
theorem decodeBody : Statement .decodeBody := by unfold Statement; decide
theorem verify : Statement .verify := by unfold Statement; decide
theorem decode : Statement .decode := by unfold Statement; decide

end Sys2Proof.Laws.Encoding
end

