-- ==== Sys2Proof/Laws/Tree.lean ====
section
/-! SUPPORT. When a visit of DERIVE_CODES reaches every leaf within the path stack's depth, and a concrete tree: the
perfect tree of 41_tree_builder.md R148. -/

namespace Sys2Proof.Machine

/-- Where the leaves are leaves and children lie below their parent, a visit from node `n` needs at most `n - 255`
levels. -/
theorem visit_isSome {nodes : Vector Node 511}
    (hleaf : ∀ n : NodeIdx, n.val < 256 → nodes[n].leaf = true)
    (hdown : ∀ n : NodeIdx, 256 ≤ n.val → nodes[n].left < n ∧ nodes[n].right < n) :
    ∀ (fuel : Nat) (n : NodeIdx) (c : List Bool) (t : Vector Code 256), n.val ≤ 255 + fuel →
      ∃ t', visit nodes fuel n c t = some t' := by
  intro fuel
  induction fuel with
  | zero =>
    intro n c t h
    exact ⟨_, by simp only [visit]; rw [if_pos (hleaf n (by omega))]⟩
  | succ fuel ih =>
    intro n c t h
    by_cases hn : nodes[n].leaf = true
    · exact ⟨_, by simp only [visit]; rw [if_pos hn]⟩
    · have hi : 256 ≤ n.val := by
        by_contra hlt
        exact hn (hleaf n (by omega))
      obtain ⟨hl, hr⟩ := hdown n hi
      obtain ⟨t₁, h₁⟩ := ih nodes[n].left (c ++ [false]) t (by have := Fin.lt_def.1 hl; omega)
      obtain ⟨t₂, h₂⟩ := ih nodes[n].right (c ++ [true]) t₁ (by have := Fin.lt_def.1 hr; omega)
      exact ⟨t₂, by simp only [visit]; rw [if_neg hn, h₁]; exact h₂⟩

/-- A leaf index is some symbol's. -/
theorem exists_leafOf {n : NodeIdx} (h : n.val < 256) : ∃ sym, leafOf sym = n := ⟨symbolOf n, leafOf_symbolOf h⟩

theorem BuiltUpTo.leaf {freq : Vector Word 256} {nodes : Vector Node 511} {hi : Nat} (h : BuiltUpTo freq nodes hi)
    {n : NodeIdx} (hn : n.val < 256) : nodes[n].leaf = true := by
  obtain ⟨sym, rfl⟩ := exists_leafOf hn
  exact (h.1 sym).1

/-- On a full tree DERIVE_CODES finds every leaf within 255 levels of ROOT (R150 (b)). -/
theorem visit_tree_isSome {freq : Vector Word 256} {nodes : Vector Node 511} (h : TreeShape freq nodes)
    (t : Vector Code 256) : ∃ t', visit nodes Config.maxCodeLen 510 [] t = some t' :=
  visit_isSome (fun _ hn => h.1.leaf hn)
    (fun n hn => ⟨(h.1.2 n hn n.isLt).2.1, (h.1.2 n hn n.isLt).2.2.1⟩) _ _ _ _ (by decide)

/-- Node `n` of the perfect tree of weight 0 (R148, 95_test_vectors.md 3.2.1). -/
def perfectNode (n : NodeIdx) : Node :=
  if n.val < 256 then leafNode 0
  else { weight := 0, leaf := false, left := ⟨(2 * (n.val - 256)) % 511, Nat.mod_lt _ (by decide)⟩
         right := ⟨(2 * (n.val - 256) + 1) % 511, Nat.mod_lt _ (by decide)⟩ }

/-- The perfect tree of weight 0. -/
def perfectTree : Vector Node 511 := Vector.ofFn perfectNode

@[simp] theorem perfectTree_get (n : NodeIdx) : perfectTree[n] = perfectNode n := by
  simp [perfectTree]

theorem perfect_children {n : NodeIdx} (h : 256 ≤ n.val) :
    (perfectNode n).left.val = 2 * (n.val - 256) ∧ (perfectNode n).right.val = 2 * (n.val - 256) + 1 := by
  have hn := n.isLt
  have h' : ¬ n.val < 256 := by omega
  simp only [perfectNode, h', if_false]
  exact ⟨Nat.mod_eq_of_lt (by omega), Nat.mod_eq_of_lt (by omega)⟩

theorem perfect_weight (n : NodeIdx) : (perfectNode n).weight = 0 := by
  unfold perfectNode
  split <;> rfl

theorem perfect_parent {hi : Nat} {p m : NodeIdx} (h : ParentIn perfectTree hi p m) : p.val = 256 + m.val / 2 := by
  obtain ⟨h1, -, h2⟩ := h
  obtain ⟨hl, hr⟩ := perfect_children h1
  simp only [perfectTree_get] at h2
  rcases h2 with rfl | rfl
  · omega
  · omega

theorem perfectTree_shape : TreeShape (Vector.replicate 256 0) perfectTree := by
  refine ⟨⟨?_, ?_⟩, ?_, ?_⟩
  · intro sym
    rw [perfectTree_get, perfectNode, if_pos (show (leafOf sym).val < 256 from sym.isLt), getAt_replicate]
    exact ⟨rfl, rfl⟩
  · intro n hn _
    obtain ⟨hl, hr⟩ := perfect_children hn
    have hlt := n.isLt
    have h' : ¬ n.val < 256 := by omega
    simp only [perfectTree_get, perfect_weight]
    refine ⟨by simp [perfectNode, h'], Fin.lt_def.2 (by omega), Fin.lt_def.2 (by omega), ?_, by simp⟩
    intro e
    have := congrArg Fin.val e
    omega
  · intro m p p' h h'
    exact Fin.ext ((perfect_parent h).trans (perfect_parent h').symm)
  · intro m
    constructor
    · intro hm
      have hp : 256 + m.val / 2 < 511 := by omega
      refine ⟨⟨256 + m.val / 2, hp⟩, Nat.le_add_right _ _, hp, ?_⟩
      obtain ⟨hl, hr⟩ := perfect_children (n := ⟨256 + m.val / 2, hp⟩) (Nat.le_add_right _ _)
      simp only [perfectTree_get]
      rcases Nat.mod_two_eq_zero_or_one m.val with h2 | h2
      · exact .inl (Fin.ext (by rw [hl]; simp only; omega))
      · exact .inr (Fin.ext (by rw [hr]; simp only; omega))
    · rintro ⟨p, h⟩
      have := perfect_parent h
      have := p.isLt
      obtain ⟨h1, -, h2⟩ := h
      obtain ⟨hl, hr⟩ := perfect_children h1
      simp only [perfectTree_get] at h2
      rcases h2 with rfl | rfl <;> omega

end Sys2Proof.Machine
end

