-- ==== Sys2Proof/Tests/Slice0.lean ====
section
/-! SUPPORT. The model's own tests. Expected results come from the spec's encodings and examples and from
95_test_vectors.md, cited by section. The second part gives, for every obligation with hypotheses, a state that meets
them. -/

set_option maxRecDepth 20000

namespace Sys2Proof.Tests
open Sys2Proof Sys2Proof.Machine

/-- What a test looks at in a next state. -/
def look {α : Type} (r : Result) (f : State → α) : Option α :=
  match r with
  | .next s => some (f s)
  | _ => none

/-- The state after reset with a source attached. -/
def withSource (bytes : List Byte) : State := { State.reset with src := bytes }

/-- A state in the middle of a COUNT. -/
def busyState : State := accept .count State.reset

/-- "AAB" -/
def aab : List Byte := [0x41, 0x41, 0x42]

/-- The upper part of the tree of 95 3.2.2: 510 = (509, leaf 0x41), 509 = (leaf 0xFF, leaf 0x42). -/
def smallTree : Vector Node 511 :=
  ((Vector.replicate 511 (leafNode 0)).set 510 { weight := 3, leaf := false, left := 509, right := 0x41 }).set 509
    { weight := 1, leaf := false, left := 0xFF, right := 0x42 }

/-- The codes of "AAB" (95 3.3.2): 0x41 '1', 0x42 '01'. -/
def smallCodes : Vector Code 256 :=
  setAt (setAt (Vector.replicate 256 ⟨1, 0⟩) 0x41 ⟨1, 1⟩) 0x42 ⟨2, 1⟩

/-- An idle state with that tree. -/
def treeState : State := { State.reset with treeValid := true, root := 510, nodes := smallTree }

/-- An idle state with those codes. -/
def codeState : State := { State.reset with codesValid := true, codes := smallCodes }

/-! ### Ill-formed words, one for each check (30_encoding.md R104) -/

theorem test_rsv_low_bit_refused : wordWellFormed 0x00000101 = false := by decide
theorem test_rsv_high_bit_refused : wordWellFormed 0x80000010 = false := by decide
theorem test_reserved_03_refused : wordWellFormed 0x00000003 = false := by decide
theorem test_reserved_1F_refused : wordWellFormed 0x0000001F = false := by decide
theorem test_reserved_2E_refused : wordWellFormed 0x0000002E = false := by decide
theorem test_reserved_33_refused : wordWellFormed 0x00000033 = false := by decide
theorem test_reserved_40_refused : wordWellFormed 0x00000040 = false := by decide
theorem test_rsv_rejected_by_name : decode 0x00000101 = .error .reservedField := by decide
theorem test_opcode_rejected_by_name : decode 0x00000013 = .error .reservedOpcode := by decide

/-! ### Decoding: RSV (24 zeros), GRP, FN, as R100 and R102 give them -/

theorem test_decode_nop : decode (0b000000000000000000000000_0000_0000#32) = .ok .nop := by decide
theorem test_decode_reset : decode (0b000000000000000000000000_0000_0001#32) = .ok .reset := by decide
theorem test_decode_rewind : decode (0b000000000000000000000000_0000_0010#32) = .ok .rewind := by decide
theorem test_decode_count : decode (0b000000000000000000000000_0001_0000#32) = .ok .count := by decide
theorem test_decode_buildTree : decode (0b000000000000000000000000_0001_0001#32) = .ok .buildTree := by decide
theorem test_decode_deriveCodes : decode (0b000000000000000000000000_0001_0010#32) = .ok .deriveCodes := by decide
theorem test_decode_writeHeader : decode (0b000000000000000000000000_0010_0000#32) = .ok .writeHeader := by decide
theorem test_decode_encodeBody : decode (0b000000000000000000000000_0010_0001#32) = .ok .encodeBody := by decide
theorem test_decode_encode : decode (0b000000000000000000000000_0010_1111#32) = .ok .encode := by decide
theorem test_decode_readHeader : decode (0b000000000000000000000000_0011_0000#32) = .ok .readHeader := by decide
theorem test_decode_decodeBody : decode (0b000000000000000000000000_0011_0001#32) = .ok .decodeBody := by decide
theorem test_decode_verify : decode (0b000000000000000000000000_0011_0010#32) = .ok .verify := by decide
theorem test_decode_decode : decode (0b000000000000000000000000_0011_1111#32) = .ok .decode := by decide

/-! ### The commands -/

/-- 95 2.1 and 2.2. -/
theorem test_nop_status : look (exec .nop State.reset) statusWord = some 0x00000002 := by decide
theorem test_nop_irq : look (exec .nop { State.reset with ie := true }) statusWord = some 0x00000102 := by decide

/-- 95 2.5: RESET clears STATUS and keeps SINK, also while busy (R131). -/
theorem test_reset_status : look (exec .reset { busyState with sink := [7] }) statusWord = some 0 := by decide
theorem test_reset_sink :
    look (exec .reset { busyState with sink := [7], freqIdx := 5 }) (fun t => (t.sink, t.freqIdx)) = some ([7], 0) := by
  decide

/-- 95 2.4. -/
theorem test_rewind : look (exec .rewind { withSource aab with inPos := 3 }) (·.inPos) = some 0 := by decide

/-- 95 3.1.2 and 3.1.3. -/
theorem test_count_aab :
    look (exec .count (withSource aab)) (fun t => (getAt t.freq 0x41, getAt t.freq 0x42, t.total, t.inPos))
      = some (2, 1, 3, 3) := by decide
theorem test_count_from_inPos :
    look (exec .count { withSource aab with inPos := 3 }) (fun t => (t.total, statusWord t)) = some (0, 2) := by decide

/-- 95 3.1.6, the last byte: the state before it has TOTAL = 2^32 - 1. -/
theorem test_count_too_long :
    errCauseWord (countByte 0x41 { busyState with total := 0xFFFFFFFF }) = 0x00001012 := by decide

/-- 95 3.2.3: at equal weights leaf 0x42 comes before node 509 and is the left child; 3.2.8: the sum wraps. -/
theorem test_merge_tie :
    (mergeOnce
      { nodes := ((Vector.replicate 511 (leafNode 0)).set 0x42 (leafNode 1)).set 509 (leafNode 1)
        q := [0x42, 509], nextNode := 510 }).nodes[510] =
      { weight := 2, leaf := false, left := 0x42, right := 509 } := by decide
theorem test_merge_wraps :
    (mergeNode ((Vector.replicate 511 (leafNode 0x80000000))) 1 509).weight = 0 := by decide

/-- 95 3.3.2: 0x41 is '1' and 0x42 is '01'. -/
theorem test_derive_codes :
    look (exec .deriveCodes treeState) (fun t => (getAt t.codes 0x41, getAt t.codes 0x42))
      = some (⟨1, 1⟩, ⟨2, 1⟩) := by decide
/-- 95 3.5.1. -/
theorem test_derive_sequence :
    look (exec .deriveCodes State.reset) (fun t => (statusWord t, errCauseWord t, t.errInfo))
      = some (0x4, 0x1211, 0x10) := by decide

/-- 42 R171's example: LAST_BITS = 1×2 + 2×1 = 4. -/
theorem test_header_sum :
    (headerSum { codeState with freq := setAt (setAt (Vector.replicate 256 0) 0x41 2) 0x42 1 }).lastBits = 4 := by
  decide
/-- 20 R76, most significant byte first: 1000 = 0x3E8 (95 1.2). -/
theorem test_counter_bytes : counterBytes 1000 = [0x00, 0x00, 0x03, 0xE8] := by decide

/-- 95 4.3.1 and 4.3.2. -/
theorem test_encode_body : look (exec .encodeBody { codeState with src := aab }) (·.sink) = some [0x0D] := by decide
theorem test_encode_body_other_input :
    look (exec .encodeBody { codeState with src := [0x42, 0x42, 0x42, 0x42] }) (·.sink) = some [0x55] := by decide

/-- 30 R106: ENCODE starts with REWIND, and COUNT follows at MSTEP 1. -/
theorem test_encode_elements :
    look (microSteps 1 (accept .encode { withSource aab with inPos := 2 }))
      (fun t => (t.inPos, t.curOp, t.issuedOp, t.mstep)) = some (0, 0x10, 0x2F, 1) := by decide

/-- 95 5.2 and 5.6. -/
theorem test_read_header_empty :
    look (exec .readHeader State.reset) (fun t => (errCauseWord t, t.errInfo)) = some (0x3001, 0) := by decide
theorem test_last_bits_range :
    (fun t => (errCauseWord t, t.errInfo, t.lastBits))
      (stepReadLast { accept .readHeader (withSource [8]) with phase := .readLast }) = (0x3003, 8, 0) := by decide

/-- 95 6.1's walk: 0D with LAST_BITS = 4 gives A, A, B and ends at ROOT. -/
theorem test_decode_body :
    look (exec .decodeBody { treeState with src := [0x0D], lastBits := 4 })
      (fun t => (t.sink, t.trailPartial, (getAt t.vfreq 0x41).val)) = some (aab, false, 2) := by decide
/-- 95 P5: 80 with LAST_BITS = 0 gives A and then a partial code; here the code '0' of the small tree. -/
theorem test_decode_body_partial :
    look (exec .decodeBody { treeState with src := [0x02], lastBits := 2 })
      (fun t => (t.sink, t.trailPartial)) = some ([0x41], true) := by decide

/-- 95 7.1.1 and P5 lines 9 to 12. -/
theorem test_verify_sequence :
    look (exec .verify State.reset) (fun t => (errCauseWord t, t.errInfo)) = some (0x3211, 0x40) := by decide
theorem test_verify_mismatch :
    look (exec .verify { State.reset with decDone := true, freq := setAt (Vector.replicate 256 0) 0x41 2 })
      (fun t => (errCauseWord t, t.errInfo)) = some (0x3205, 0x41) := by decide

/-- 95 P4 line 8, with a shorter source: DECODE reports READ_HEADER's error. -/
theorem test_decode_truncated :
    look (exec .decode (withSource [0, 0, 0])) (fun t => (statusWord t, errCauseWord t, t.errInfo))
      = some (0x4, 0x3001, 3) := by decide

/-! ### The window and the host's moves -/

/-- 95 2.6 and 2.7. -/
theorem test_illegal_command :
    look (hostWrite 0x08 0x00000003 { State.reset with done := true }) (fun t => (statusWord t, errCauseWord t, t.errInfo))
      = some (0x4, 0x310, 3) := by decide
theorem test_illegal_not_reset :
    look (hostWrite 0x08 0x00000101 State.reset) (fun t => (errCauseWord t, t.errInfo)) = some (0x110, 0x101) := by
  decide

/-- 95 3.2.2, the window reads of nodes 510 and 0x41. -/
theorem test_node_link : (readReg .nodeLink { treeState with nodeIdx := 510 }).1 = 0x004101FD := by decide
theorem test_node_link_leaf : (readReg .nodeLink { treeState with nodeIdx := 0x41 }).1 = 0x80000000 := by decide

/-- 95 3.4, n = 42: a code of 42 ones reads 0xFFFFFFFF and 0x3FF. -/
theorem test_code_val_word1 :
    (readReg .codeVal { codeState with codes := Vector.replicate 256 (codeOfPath (List.replicate 42 true)),
                                       codeIdx := 0x101 }).1 = 0x3FF := by decide

/-- 10_state.md R48: IN_COUNT reads IN_POS mod 2^32. -/
theorem test_in_count_wraps :
    look (hostRead 0x20 { State.reset with inPos := 2 ^ 32 + 5 }) (·.reads) = some [(0x20, 5)] := by decide

/-- 10_state.md R53, R54: a saturated counter reads 0xFFFFFFFF with OVF = 1. -/
theorem test_vfreq_saturated :
    (readReg .vfreqData { State.reset with vfreq := Vector.replicate 256 4294967296 }).1 = 0xFFFFFFFF ∧
      (readReg .vfreqFlags { State.reset with vfreq := Vector.replicate 256 4294967296 }).1 = 1 := by decide

/-- 95 8.1 (a): a write while busy is dropped and sets OVERRUN. -/
theorem test_busy_write_dropped :
    look (hostWrite 0x28 5 busyState) (fun t => (t.freqIdx, t.overrun, t.busy)) = some (0, true, true) := by decide

/-- 30 R108 `wait`: the sequencer runs on until BUSY = 0, then the STATUS read ends the wait. -/
theorem test_wait_keeps_waiting :
    look (step { accept .nop State.reset with script := [.wait] }) (fun t => (t.busy, t.script)) = some (false, [.wait]) := by
  decide

/-! ### Witnesses: the hypotheses of the obligations can be met -/

theorem witness_StepRunsDecodedCommand :
    (placeCommand State.reset 32 0x2F).script = .command 0x2F :: [] ∧ decode 0x2F = .ok .encode ∧
      decode 0x40 = .error .reservedOpcode := by decide

theorem witness_PlacedWordRuns : 0x3F < 2 ^ 32 ∧ decodeTableWord 32 0x3F = some .decode := by decide

theorem witness_SequencerTakesTurns :
    State.reset.script = [] ∧ ({ State.reset with script := [.turn] } : State).script = [.turn] ∧
      State.reset.busy = false ∧ busyState.busy = true := by decide

theorem witness_idle_and_command : State.reset.busy = false ∧ Instr.decode ≠ .reset := by decide

theorem witness_IllegalWordRaises :
    State.reset.busy = false ∧ busyState.busy = true ∧ wordWellFormed 0x100 = false := by decide

theorem witness_busy : busyState.busy = true ∧ (0x2F : Word) ≠ 0x00000001 ∧ Instr.encode ≠ .reset := by decide

theorem witness_DecodeAcceptsExactlyLegalWords :
    wordWellFormed 0x2F = true ∧ decode 0x2F = .ok .encode ∧ wordWellFormed 0x22 = false := by decide

theorem witness_CountCountsUnread :
    (withSource (List.replicate (2 ^ 32 - 1) 0)).busy = false ∧
      (unread (withSource (List.replicate (2 ^ 32 - 1) 0))).length < 2 ^ 32 := by
  refine ⟨rfl, ?_⟩
  show (List.drop 0 (List.replicate (2 ^ 32 - 1) (0 : Byte))).length < 2 ^ 32
  rw [List.length_drop, List.length_replicate]
  omega

theorem witness_TooLongInputIsRefused :
    (withSource (List.replicate (2 ^ 32) 0)).busy = false ∧
      (unread (withSource (List.replicate (2 ^ 32) 0)))[2 ^ 32 - 1]? = some 0 ∧
      (withSource (List.replicate (2 ^ 32) 0)).src[2 ^ 32 - 1]? = some 0 := by
  have h : (List.replicate (2 ^ 32) (0 : Byte))[2 ^ 32 - 1]? = some 0 :=
    List.getElem?_replicate.trans (if_pos (by omega))
  exact ⟨rfl, h, h⟩

theorem witness_CountSumIsTotal :
    State.reset.busy = false ∧ (∃ t, exec .count State.reset = .next t ∧ t.done = true) ∧
      State.reset.inPos ≤ State.reset.src.length :=
  ⟨rfl, ⟨_, rfl, by decide⟩, Nat.le_refl _⟩

theorem witness_build_next : State.reset.busy = false ∧ ∃ t, exec .buildTree State.reset = .next t := by
  refine ⟨rfl, ?_⟩
  have h : exec .buildTree State.reset = buildBody (accept .buildTree State.reset) :=
    (issue_idle (s := State.reset) rfl .buildTree [buildBody]).trans (runElements_single _ _)
  exact ⟨_, h⟩

/-- An idle state with the perfect tree, for the statements about a built tree. -/
def perfectState : State := { State.reset with treeValid := true, root := 510, nodes := perfectTree }

theorem witness_built_tree :
    perfectState.busy = false ∧ perfectState.treeValid = true ∧ perfectState.root = 510 ∧
      TreeShape perfectState.freq perfectState.nodes := ⟨rfl, rfl, rfl, perfectTree_shape⟩

theorem witness_derive_next :
    perfectState.busy = false ∧ perfectState.treeValid = true ∧ perfectState.root = 510 ∧
      TreeShape perfectState.freq perfectState.nodes ∧ (∃ t, exec .deriveCodes perfectState = .next t) ∧
      (0x41 : Byte) ≠ 0x42 := by
  refine ⟨rfl, rfl, rfl, perfectTree_shape, ?_, by decide⟩
  obtain ⟨codes, h⟩ := visit_tree_isSome perfectTree_shape (Vector.replicate 256 ⟨0, 0⟩)
  refine ⟨deriveFinish { accept .deriveCodes perfectState with codes := codes }, ?_⟩
  show issue .deriveCodes [deriveBody] perfectState = _
  rw [issue_idle (by rfl), runElements_single]
  show deriveBody (accept .deriveCodes perfectState) = _
  unfold deriveBody require
  rw [if_pos (by rfl)]
  have h' : visit (accept .deriveCodes perfectState).nodes Config.maxCodeLen (accept .deriveCodes perfectState).root []
      (accept .deriveCodes perfectState).codes = some codes := h
  simp only [h']

/-- An idle state with every counter at the largest value below 2^24. -/
def equalState : State := { State.reset with freq := Vector.replicate 256 0xFFFFFF }

theorem witness_EqualWeightsGivePerfectTree :
    equalState.busy = false ∧ (0xFFFFFF : Word).toNat < 2 ^ 24 ∧ ∀ sym, getAt equalState.freq sym = 0xFFFFFF :=
  ⟨rfl, by decide, fun sym => getAt_replicate _ sym⟩

theorem witness_codes_valid : codeState.busy = false ∧ codeState.codesValid = true := by decide

theorem witness_EncodeEmitsFile :
    (withSource (List.replicate (2 ^ 32 - 1) 0)).busy = false ∧
      (withSource (List.replicate (2 ^ 32 - 1) 0)).src.length < 2 ^ 32 := by
  refine ⟨rfl, ?_⟩
  show (List.replicate (2 ^ 32 - 1) (0 : Byte)).length < 2 ^ 32
  rw [List.length_replicate]
  omega

theorem witness_ReadHeaderFillsFreq :
    (withSource (List.replicate 1024 0 ++ [7])).busy = false ∧
      (unread (withSource (List.replicate 1024 0 ++ [7])))[1024]? = some 7 ∧ (7 : Byte).toNat ≤ 7 := by
  refine ⟨rfl, ?_, by decide⟩
  exact List.getElem?_append_right (by rw [List.length_replicate])

theorem witness_ReadHeaderTruncated :
    (withSource (List.replicate 1023 0)).busy = false ∧
      (unread (withSource (List.replicate 1023 0))).length < 1024 := by
  refine ⟨rfl, ?_⟩
  show (List.replicate 1023 (0 : Byte)).length < 1024
  rw [List.length_replicate]
  omega

/-- LAST_BITS_ABSENT's clause. -/
theorem witness_ReadHeaderLastBitsErrors_absent :
    (withSource (List.replicate 1024 0)).busy = false ∧
      (unread (withSource (List.replicate 1024 0))).length = 1024 :=
  ⟨rfl, List.length_replicate⟩

/-- LAST_BITS_RANGE's clause, at the least byte out of range. -/
theorem witness_ReadHeaderLastBitsErrors_range :
    (withSource (List.replicate 1024 0 ++ [8])).busy = false ∧
      (unread (withSource (List.replicate 1024 0 ++ [8])))[1024]? = some 8 ∧ 7 < (8 : Byte).toNat := by
  refine ⟨rfl, ?_, by decide⟩
  exact List.getElem?_append_right (by rw [List.length_replicate])

theorem witness_DecodeBodyWalksBits :
    treeState.busy = false ∧ treeState.treeValid = true ∧ treeState.nodes[treeState.root].leaf = false := by decide

/-- After an empty DECODE_BODY. -/
def verifyState : State := { State.reset with decDone := true }

theorem witness_VerifyPasses :
    verifyState.busy = false ∧ verifyState.decDone = true ∧
      ∀ sym, (getAt verifyState.vfreq sym).val = (getAt verifyState.freq sym).toNat := by
  refine ⟨rfl, rfl, fun sym => ?_⟩
  simp [verifyState, State.reset]

/-- The same state with the last symbol's counter changed by the host. -/
def lastMismatch : State := { verifyState with freq := setAt verifyState.freq 0xFF 1 }

/-- The lowest mismatch at the last symbol: every lower one agrees. -/
theorem witness_VerifyReportsLowestMismatch :
    lastMismatch.busy = false ∧ lastMismatch.decDone = true ∧
      (getAt lastMismatch.vfreq 0xFF).val ≠ (getAt lastMismatch.freq 0xFF).toNat ∧
      ∀ a : Byte, a < 0xFF → (getAt lastMismatch.vfreq a).val = (getAt lastMismatch.freq a).toNat := by
  refine ⟨rfl, rfl, ?_, ?_⟩
  · simp [lastMismatch, verifyState, State.reset]
  · intro a ha
    have hne : (0xFF : Byte) ≠ a := by rintro rfl; exact absurd ha (by decide)
    simp only [lastMismatch]
    rw [getAt_setAt, if_neg hne]
    simp [verifyState, State.reset]

/-- 95 P4's file of the empty input: 1024 zero bytes and `last_bits` 0 (30_encoding.md R110). -/
def emptyFile : List Byte := List.replicate 1025 0

theorem getD_zeros (m k : Nat) : (List.replicate m (0 : Byte)).getD k 0 = 0 := by
  rw [List.getD_eq_getElem?_getD, List.getElem?_replicate]
  split <;> rfl

theorem witness_DecodeCompletes :
    (withSource emptyFile).busy = false ∧ (withSource emptyFile).src[1024]? = some 0 ∧ (0 : Byte).toNat ≤ 7 ∧
      ∀ sym, (getAt (vcountsOf (decodeWalk (treeOf (headerInto emptyFile 256 State.reset.freq)) 510 510
        (bodyBits ((0 : Byte).setWidth 3) (emptyFile.drop 1025))).1) sym).val =
          (getAt (headerInto emptyFile 256 State.reset.freq) sym).toNat := by
  refine ⟨rfl, List.getElem?_replicate.trans (if_pos (by omega)), by decide, fun sym => ?_⟩
  have hd : emptyFile.drop 1025 = [] := List.drop_replicate
  have hc : ∀ n, headerCounter emptyFile n = 0 := fun n => by
    have h : ∀ k, emptyFile.getD k 0 = 0 := getD_zeros 1025
    simp only [headerCounter, h]
    decide
  rw [hd]
  simp [bodyBits, decodeWalk, vcountsOf, headerInto, getAt, hc]

theorem witness_RoundTrip : State.reset.busy = false ∧ perfectState.busy = false ∧ aab.length < 2 ^ 32 := by
  refine ⟨rfl, rfl, by decide⟩

theorem witness_MissingFlagRaisesSequence :
    State.reset.busy = false ∧ State.reset.treeValid = false ∧ State.reset.codesValid = false ∧
      State.reset.decDone = false := by decide

theorem witness_accepted_command_ends :
    State.reset.busy = false ∧ Instr.nop ≠ .reset ∧ ∃ t, exec .nop State.reset = .next t := ⟨rfl, by decide, _, rfl⟩

theorem witness_ReadWriteRegistersKeepFields : ({ State.reset with nodeIdx := 511 } : State).busy = false := by decide

theorem witness_CounterAndCodeWindowsShowTables :
    codeState.busy = false ∧ codeState.codesValid = true ∧
      (getAt ({ codeState with vfreq := Vector.replicate 256 4294967296 } : State).vfreq codeState.freqIdx).val = 2 ^ 32 := by
  decide

theorem witness_register_windows :
    treeState.busy = false ∧ treeState.treeValid = true ∧ ({ State.reset with nodeIdx := 511 } : State).nodeIdx = 511 ∧
      ({ treeState with nodeIdx := 510 } : State).nodeIdx = BitVec.ofNat 9 (510 : NodeIdx).val ∧
      (0x54 ≤ 0x54 ∧ 0x54 % 4 = 0 ∧ 0xFC < 0x100 ∧ 0xFC % 4 = 0) := by decide

theorem witness_ReadsHaveNoSideEffect : ∃ t, hostRead 0x50 State.reset = .next t := ⟨_, rfl⟩

theorem witness_HostMovesOutsideTheRules :
    0x02 % 4 ≠ 0 ∧ 256 ≤ 0x100 ∧ busyState.busy = true ∧ State.reset.busy = false := by decide

theorem witness_micro_step_runs :
    State.reset.busy = false ∧ Instr.verify ∉ [Instr.reset, .encode, .decode] ∧ Instr.encode ∈ [Instr.encode, .decode] ∧
      256 < 257 := by decide

/-- The state after reset with an ENCODE to be written to CMD and micro-steps to follow. -/
def scripted : State := { State.reset with script := [.write 0x08 0x2F, .turn] }

theorem scripted_controlInv : ControlInv scripted := by
  refine ⟨?_, ?_, ?_, ?_, ?_, Nat.zero_le _⟩
  · intro _; exact ⟨rfl, rfl, rfl, rfl⟩
  · intro h; exact absurd h Bool.false_ne_true
  · exact ⟨rfl, rfl, rfl⟩
  · intro h; exact absurd h.1 Bool.false_ne_true
  · intro _; exact ⟨rfl, rfl⟩

theorem scripted_treeInv : TreeInv scripted := by
  refine ⟨?_, ?_, trivial⟩
  · intro h; exact absurd h Bool.false_ne_true
  · intro h; exact absurd h Bool.false_ne_true

theorem witness_invariant_step : ControlInv scripted ∧ TreeInv scripted ∧ ∃ t, step scripted = .next t :=
  ⟨scripted_controlInv, scripted_treeInv, _, rfl⟩

theorem witness_SourceChangesOnlyByAttach :
    (∃ t, step scripted = .next t) ∧ ∀ bytes, scripted.script.head? ≠ some (.attach bytes) :=
  ⟨⟨_, rfl⟩, fun bytes => by simp [scripted]⟩

/-- Two states that differ only in ROOT and WALK, which the spec leaves unspecified after reset. -/
theorem witness_UnspecifiedValuesStayHidden :
    TreeInv scripted ∧ visible scripted = visible { scripted with root := 7, walk := 9 } ∧
      scripted.root ≠ ({ scripted with root := 7, walk := 9 } : State).root :=
  ⟨scripted_treeInv, rfl, by decide⟩

end Sys2Proof.Tests
end

section
/-! SUPPORT. The frame all commands share (00_scope.md): what a command leaves to the host. Each command is the run of
its elements, and each element keeps the host's side. -/

namespace Sys2Proof.Machine

/-! ### A command as the run of its elements -/

/-- What a primitive does from its first micro-step to its end. RESET has no micro-step (40 R131) and a macro is none
of its own elements, so they do nothing here, as in `startPhase`. -/
def elementBody : Instr → State → Result
  | .nop => nopBody
  | .rewind => rewindBody
  | .count => countBody
  | .buildTree => buildBody
  | .deriveCodes => deriveBody
  | .writeHeader => writeHeaderBody
  | .encodeBody => encodeBodyBody
  | .readHeader => readHeaderBody
  | .decodeBody => decodeBodyBody
  | .verify => verifyBody
  | .reset | .encode | .decode => .next

/-- Every command but RESET issues the elements of its expansion (30 R106). -/
theorem exec_eq_issue {i : Instr} (hi : i ≠ .reset) (s : State) :
    exec i s = issue i ((expansion i).map elementBody) s := by
  cases i with
  | reset => exact absurd rfl hi
  | _ => rfl

/-! ### The host's side of a state -/

/-- What belongs to the host and no running command writes: CTRL, the index registers, SRC, OVERRUN (set by a dropped
write alone, R41), and the model's script and reads. -/
structure HostSide where
  /-- CTRL.IE (R40) -/
  ie : Bool
  /-- FREQ_IDX (R50) -/
  freqIdx : Byte
  /-- CODE_IDX (R55) -/
  codeIdx : BitVec 11
  /-- NODE_IDX (R58) -/
  nodeIdx : BitVec 9
  /-- SRC (R70) -/
  src : List Byte
  /-- the host's moves still to come (log 2) -/
  script : List HostMove
  /-- what the host's reads returned (log 12) -/
  reads : List (Nat × Word)
  /-- STATUS.OVERRUN (R42) -/
  overrun : Bool

/-- The host's side of a state. -/
def hostSide (s : State) : HostSide where
  ie := s.ie
  freqIdx := s.freqIdx
  codeIdx := s.codeIdx
  nodeIdx := s.nodeIdx
  src := s.src
  script := s.script
  reads := s.reads
  overrun := s.overrun

theorem hostSide_dropWrite (s : State) : hostSide (dropWrite s) = { hostSide s with overrun := true } := rfl

theorem hostSide_accept (i : Instr) (s : State) : hostSide (accept i s) = hostSide s := rfl

theorem hostSide_abort (cause : Cause) (info : Word) (s : State) : hostSide (abort cause info s) = hostSide s := rfl

theorem hostSide_withForest (f : Forest) (s : State) : hostSide (withForest f s) = hostSide s := rfl

theorem hostSide_finishElement (s : State) : hostSide (finishElement s) = hostSide s := by
  simp [hostSide]

theorem hostSide_ite {c : Prop} [Decidable c] {s t u : State} (ht : hostSide t = hostSide s)
    (hu : hostSide u = hostSide s) : hostSide (if c then t else u) = hostSide s := by
  split
  · exact ht
  · exact hu

theorem hostSide_of_inRead {s t : State} {b : Option Byte} (h : inRead s = (b, t)) : hostSide t = hostSide s := by
  unfold inRead at h
  split at h <;> cases h <;> rfl

/-! ### The parts of a command's run -/

theorem hostSide_countByte (b : Byte) (s : State) : hostSide (countByte b s) = hostSide s := by
  rcases countByte_cases b s with ⟨-, h⟩ | ⟨-, h⟩ <;> rw [h] <;> rfl

theorem hostSide_countLoop (bytes : List Byte) (s : State) : hostSide (countLoop bytes s) = hostSide s := by
  induction bytes generalizing s with
  | nil => exact hostSide_finishElement s
  | cons b rest ih =>
    have hb : hostSide (countByte b { s with inPos := s.inPos + 1 }) = hostSide s := hostSide_countByte b _
    exact hostSide_ite ((ih _).trans hb) hb

theorem hostSide_storeCounter (n : Nat) (v : Word) (s : State) : hostSide (storeCounter n v s) = hostSide s :=
  hostSide_ite rfl rfl

theorem hostSide_readHeaderLoop (k n : Nat) (v : Word) (s : State) :
    hostSide (readHeaderLoop k n v s) = hostSide s := by
  induction k generalizing n v s with
  | zero =>
    unfold readHeaderLoop
    split
    next t h => exact (hostSide_abort _ _ t).trans (hostSide_of_inRead h)
    next b t h =>
      have ht : hostSide t = hostSide s := hostSide_of_inRead h
      exact hostSide_ite ((hostSide_abort _ _ t).trans ht) ((hostSide_finishElement _).trans ht)
  | succ k ih =>
    unfold readHeaderLoop
    split
    next t h => exact (hostSide_abort _ _ t).trans (hostSide_of_inRead h)
    next b t h => exact (ih _ _ _).trans ((hostSide_storeCounter _ _ _).trans (hostSide_of_inRead h))

theorem hostSide_walkBit (bit : Bool) (s : State) : hostSide (walkBit bit s) = hostSide s := by
  rcases walkBit_cases bit s with ⟨-, h⟩ | ⟨-, -, h⟩ | ⟨-, -, h⟩ <;> rw [h] <;> rfl

theorem hostSide_walkByte (k : Nat) (s : State) : hostSide (walkByte k s) = hostSide s := by
  induction k generalizing s with
  | zero => rfl
  | succ k ih => exact hostSide_ite ((ih _).trans (hostSide_walkBit _ s)) (hostSide_walkBit _ s)

theorem hostSide_walkFinish (s : State) : hostSide (walkFinish s) = hostSide s := hostSide_finishElement _

theorem hostSide_walkEnd (s : State) : hostSide (walkEnd s) = hostSide s :=
  hostSide_ite
    (hostSide_ite ((hostSide_walkFinish _).trans (hostSide_walkByte _ s)) (hostSide_walkByte _ s))
    (hostSide_walkFinish s)

theorem hostSide_walkLoop (bytes : List Byte) (s : State) : hostSide (walkLoop bytes s) = hostSide s := by
  induction bytes generalizing s with
  | nil => exact hostSide_walkEnd s
  | cons b rest ih =>
    have hwalk (t : State) : hostSide (if t.pendingValid then walkByte 8 t else t) = hostSide t :=
      hostSide_ite (hostSide_walkByte 8 t) rfl
    have hu := hwalk { s with inPos := s.inPos + 1 }
    exact hostSide_ite ((ih _).trans hu) hu

theorem hostSide_verifyLoop (syms : List Byte) (s : State) : hostSide (verifyLoop syms s) = hostSide s := by
  induction syms with
  | nil => exact hostSide_finishElement s
  | cons sym rest ih => exact hostSide_ite ih rfl

theorem hostSide_emitGroups (k : Nat) (s : State) : hostSide (emitGroups k s) = hostSide s := by
  induction k generalizing s with
  | zero => rfl
  | succ k ih => exact ih (emitGroup s)

theorem hostSide_packEnd (s : State) : hostSide (packEnd s) = hostSide s :=
  hostSide_ite (hostSide_finishElement s) (hostSide_finishElement _)

theorem hostSide_packLoop (bytes : List Byte) (s : State) : hostSide (packLoop bytes s) = hostSide s := by
  induction bytes generalizing s with
  | nil => exact hostSide_packEnd s
  | cons b rest ih => exact (ih _).trans (hostSide_emitGroups _ _)

theorem hostSide_buildFinish (s : State) : hostSide (buildFinish s) = hostSide s := hostSide_finishElement _

theorem hostSide_writeHeader (s : State) :
    hostSide (headerLast (headerSum (outWriteAll (headerBytesOf s.freq) s))) = hostSide s := by
  simp [hostSide, headerLast, headerSum]

/-! ### The elements, and their runs -/

/-- Wherever the body answers a next state, the host's side is unchanged. -/
def KeepsHostSide (body : State → Result) : Prop :=
  ∀ s t, body s = .next t → hostSide t = hostSide s

theorem KeepsHostSide.of_next {f : State → State} (hf : ∀ s, hostSide (f s) = hostSide s) :
    KeepsHostSide fun s => .next (f s) := by
  intro s t h
  cases h
  exact hf s

/-- A failed prerequisite check aborts, which keeps the host's side. -/
theorem keepsHostSide_require {body : State → Result} (hbody : KeepsHostSide body) (flag : State → Bool)
    (missing : Word) : KeepsHostSide fun s => require (flag s) missing body s := by
  intro s t h
  dsimp only at h
  cases hflag : flag s with
  | true =>
    rw [hflag, require_set] at h
    exact hbody s t h
  | false =>
    rw [hflag, require_clear] at h
    cases h
    exact hostSide_abort _ _ s

theorem keepsHostSide_deriveBody : KeepsHostSide deriveBody := by
  refine keepsHostSide_require ?_ State.treeValid treeValidBit
  intro s t h
  dsimp only at h
  split at h
  · cases h
    exact hostSide_finishElement _
  · cases h

theorem keepsHostSide_elementBody (e : Instr) : KeepsHostSide (elementBody e) := by
  cases e with
  | nop => exact .of_next hostSide_finishElement
  | rewind => exact .of_next fun s => hostSide_finishElement (rewindInput s)
  | count => exact .of_next fun s => hostSide_countLoop _ (countClear s)
  | buildTree => exact .of_next fun s => (hostSide_buildFinish _).trans (hostSide_withForest _ (buildInit s))
  | deriveCodes => exact keepsHostSide_deriveBody
  | writeHeader => exact keepsHostSide_require (.of_next hostSide_writeHeader) State.codesValid _
  | encodeBody =>
    exact keepsHostSide_require (.of_next fun s => hostSide_packLoop _ { s with acc := [] }) State.codesValid _
  | readHeader => exact .of_next fun s => hostSide_readHeaderLoop _ _ _ (clearAllValid s)
  | decodeBody => exact keepsHostSide_require (.of_next fun s => hostSide_walkLoop _ (walkClear s)) State.treeValid _
  | verify => exact keepsHostSide_require (.of_next (hostSide_verifyLoop symbols)) State.decDone _
  | reset | encode | decode => exact .of_next fun s => rfl

theorem keepsHostSide_runElements (elements : List Instr) :
    KeepsHostSide (runElements (elements.map elementBody)) := by
  induction elements with
  | nil => exact .of_next fun s => rfl
  | cons e rest ih =>
    intro s t h
    obtain ⟨u, hu, ht⟩ := andThen_eq_next.1 h
    have hkeep : hostSide u = hostSide s := keepsHostSide_elementBody e s u hu
    split at ht
    · exact (ih u t ht).trans hkeep
    · cases ht
      exact hkeep

/-- What a CMD write of a command other than RESET does to the host's side: it sets OVERRUN where the write is dropped
(R41), and changes nothing else. -/
theorem hostSide_exec {i : Instr} (hi : i ≠ .reset) {s t : State} (h : exec i s = .next t) :
    hostSide t = { hostSide s with overrun := s.overrun || s.busy } := by
  rw [exec_eq_issue hi] at h
  cases hb : s.busy with
  | true =>
    rw [issue_busy hb] at h
    cases h
    rw [hostSide_dropWrite, Bool.or_true]
  | false =>
    rw [issue_idle hb] at h
    rw [keepsHostSide_runElements _ _ t h, hostSide_accept, Bool.or_false]
    rfl

/-- Settles O41: every element of every command keeps the host's side, so only the dropped write changes it. -/
theorem commandsKeepHostRegisters : Obligations.CommandsKeepHostRegisters := by
  intro s t i hi h
  simpa [hostSide] using hostSide_exec hi h

end Sys2Proof.Machine
end

section
/-! SUPPORT. A command's micro-steps run its elements (30_encoding.md R106, 20_memory.md R94): from the start of each
element the micro-steps lead to what the element's body answers, and so a whole command ends where `exec` says. -/

namespace Sys2Proof.Machine

/-! ### What an element leaves alone until its end -/

/-- The sequencer's and the error registers' fields that stay as they are while an element runs (R23, R25, R44). -/
structure Control where
  /-- ISSUED_OP (R23) -/
  issuedOp : Byte
  /-- CUR_OP (R23) -/
  curOp : Byte
  /-- MSTEP (R23) -/
  mstep : BitVec 3
  /-- STATUS.BUSY (R42) -/
  busy : Bool
  /-- STATUS.DONE (R42) -/
  done : Bool
  /-- STATUS.ERR (R42) -/
  err : Bool
  /-- ERR_CAUSE.CAUSE (R44) -/
  errCause : Cause
  /-- ERR_CAUSE.OP (R44) -/
  errOp : Byte
  /-- ERR_INFO (R45) -/
  errInfo : Word

/-- The control fields of a state. -/
def control (s : State) : Control where
  issuedOp := s.issuedOp
  curOp := s.curOp
  mstep := s.mstep
  busy := s.busy
  done := s.done
  err := s.err
  errCause := s.errCause
  errOp := s.errOp
  errInfo := s.errInfo

theorem busy_of_control {s u : State} (h : control u = control s) (hb : s.busy = true) : u.busy = true :=
  (congrArg Control.busy h).trans hb

theorem laterElements_of_control {s u : State} (h : control u = control s) : laterElements u = laterElements s := by
  have hi : u.issuedOp = s.issuedOp := congrArg Control.issuedOp h
  have hm : u.mstep = s.mstep := congrArg Control.mstep h
  simp only [laterElements, hi, hm]

@[simp] theorem control_goTo (p : Phase) (s : State) : control (goTo p s) = control s := rfl

@[simp] theorem control_outWrite (b : Byte) (s : State) : control (outWrite b s) = control s := rfl

/-! ### Positions -/

theorem goTo_of_phase {s : State} {p : Phase} (h : s.phase = p) : goTo p s = s := by
  subst h
  rfl

@[simp] theorem goTo_goTo (p q : Phase) (s : State) : goTo p (goTo q s) = goTo p s := rfl

/-- Where an element's end leads does not depend on the position it ends at. -/
@[simp] theorem finishElement_goTo (p : Phase) (s : State) : finishElement (goTo p s) = finishElement s := by
  have h : laterElements (goTo p s) = laterElements s := rfl
  unfold finishElement
  rw [h]
  cases laterElements s <;> rfl

@[simp] theorem abort_goTo (c : Cause) (w : Word) (p : Phase) (s : State) : abort c w (goTo p s) = abort c w s := rfl

/-! ### The run of one element -/

/-- From `s` the micro-steps of the present element lead to `r`, which is its end: the element is finished, or the
command has ended by an abort, or the model stops. -/
inductive RunsTo : State → Result → Prop
  | finish {s u : State} (h : runningStep s = .next (finishElement u)) (hu : control u = control s) :
      RunsTo s (.next (finishElement u))
  | raise {s t : State} (h : runningStep s = .next t) (ht : t.busy = false) : RunsTo s (.next t)
  | fault {s : State} {f : Fault} (h : runningStep s = .fault f) : RunsTo s (.fault f)
  | step {s t : State} {r : Result} (h : runningStep s = .next t) (ht : control t = control s)
      (run : RunsTo t r) : RunsTo s r

/-- A run depends on its first state only by the first micro-step and the control fields. -/
theorem RunsTo.congr {s s' : State} {r : Result} (hstep : runningStep s = runningStep s')
    (hc : control s = control s') (run : RunsTo s' r) : RunsTo s r := by
  cases run with
  | finish h hu => exact .finish (hstep.trans h) (hu.trans hc.symm)
  | raise h ht => exact .raise (hstep.trans h) ht
  | fault h => exact .fault (hstep.trans h)
  | step h ht run => exact .step (hstep.trans h) (ht.trans hc.symm) run

/-- A failed prerequisite check ends the run; a passed one goes on (30 R107). -/
theorem RunsTo.require {s : State} {p : Phase} {flag : Bool} {missing : Word} {k : State → Result}
    (first : State → State)
    (hstep : runningStep (goTo p s) = require flag missing (fun t => .next (first t)) (goTo p s))
    (hfirst : control (first (goTo p s)) = control s) (run : RunsTo (first (goTo p s)) (k s)) :
    RunsTo (goTo p s) (require flag missing k s) := by
  cases flag with
  | true => exact .step hstep hfirst run
  | false => exact .raise hstep rfl

/-! ### The read of one byte -/

/-- IN_POS moves past a byte that InRead delivers (20 R72). -/
def consume (s : State) : State := { s with inPos := s.inPos + 1 }

theorem consume_goTo (p : Phase) (s : State) : consume (goTo p s) = goTo p (consume s) := rfl

@[simp] theorem control_consume (s : State) : control (consume s) = control s := rfl

theorem inRead_cons {s : State} {b : Byte} {rest : List Byte} (h : unread s = b :: rest) :
    inRead s = (some b, consume s) := inRead_byte h

theorem unread_consume {s : State} {b : Byte} {rest : List Byte} (h : unread s = b :: rest) :
    unread (consume s) = rest := unread_advance h

/-! ### COUNT -/

/-- The byte `b` is counted (R141). -/
def counted (b : Byte) (s : State) : State :=
  { s with freq := setAt s.freq b (getAt s.freq b + 1), total := s.total + 1 }

theorem countByte_full {s : State} (h : s.total = 0xFFFFFFFF) (b : Byte) :
    countByte b s = abort .inputTooLong (b.setWidth 32) s := if_pos h

theorem countByte_counted {s : State} (h : s.total ≠ 0xFFFFFFFF) (b : Byte) : countByte b s = counted b s := if_neg h

theorem countLoop_cons (b : Byte) (rest : List Byte) (s : State) :
    countLoop (b :: rest) s =
      if (countByte b (consume s)).busy then countLoop rest (countByte b (consume s)) else countByte b (consume s) :=
  rfl

theorem stepCountRead_eos {s : State} (h : unread s = []) : stepCountRead s = finishElement s := by
  simp only [stepCountRead, inRead_eos h]

theorem stepCountRead_cons {s : State} {b : Byte} {rest : List Byte} (h : unread s = b :: rest) :
    stepCountRead s = countByte b (consume s) := by
  simp only [stepCountRead, inRead_cons h]

theorem runsTo_countLoop (bytes : List Byte) (s : State) (h : unread s = bytes) (hb : s.busy = true) :
    RunsTo (goTo .countRead s) (.next (countLoop bytes s)) := by
  induction bytes generalizing s with
  | nil =>
    have hstep : runningStep (goTo .countRead s) = .next (finishElement s) :=
      congrArg _ ((stepCountRead_eos (s := goTo .countRead s) h).trans (finishElement_goTo _ s))
    exact .finish hstep rfl
  | cons b rest ih =>
    have hstep : runningStep (goTo .countRead s) = .next (countByte b (goTo .countRead (consume s))) :=
      congrArg _ (stepCountRead_cons (s := goTo .countRead s) h)
    rw [countLoop_cons]
    by_cases ht : s.total = 0xFFFFFFFF
    · rw [countByte_full (s := consume s) ht]
      rw [countByte_full (s := goTo .countRead (consume s)) ht] at hstep
      exact .raise hstep rfl
    · rw [countByte_counted (s := consume s) ht, if_pos (by exact hb)]
      rw [countByte_counted (s := goTo .countRead (consume s)) ht] at hstep
      exact .step hstep rfl (ih (counted b (consume s)) (unread_consume h) hb)

/-! ### BUILD_TREE -/

/-- A merge takes one node off Q and one free node of the arena (R145). -/
theorem mergeOnce_counts {f : Forest} (h2 : 2 ≤ f.q.length) (hsum : f.q.length + f.nextNode.toNat = 512) :
    (mergeOnce f).q.length = f.q.length - 1 ∧ (mergeOnce f).nextNode.toNat = f.nextNode.toNat + 1 := by
  have hn : f.nextNode.toNat < 511 := by omega
  obtain ⟨a, b, ha, hb, hmerge⟩ := mergeOnce_eq h2 hn
  have hla := List.length_erase_of_mem (popMin_some ha).1
  have hlb := List.length_erase_of_mem (popMin_some hb).1
  rw [hmerge]
  constructor
  · simp only [List.length_append, List.length_singleton]
    omega
  · rw [BitVec.toNat_add, show (1 : BitVec 10).toNat = 1 from rfl]
    omega

/-- BUILD_TREE's final micro-step at whatever position. -/
theorem buildFinish_goTo (p : Phase) (s : State) : buildFinish (goTo p s) = buildFinish s :=
  finishElement_goTo p (releaseNext { s with root := s.q.headD s.root, q := [], treeValid := true })

theorem runsTo_merges (k : Nat) (s : State) (hk : s.q.length = k + 1)
    (hsum : s.q.length + s.nextNode.toNat = 512) :
    RunsTo (goTo .buildMerge s) (.next (buildFinish (withForest (mergeTimes k (forestOf s)) s))) := by
  induction k generalizing s with
  | zero =>
    have hstep : stepBuildMerge (goTo .buildMerge s) = .next (buildFinish (goTo .buildMerge s)) := if_pos hk
    rw [buildFinish_goTo] at hstep
    exact .finish hstep rfl
  | succ k ih =>
    have h2 : 2 ≤ s.q.length := by omega
    have hn : s.nextNode.toNat < 511 := by omega
    obtain ⟨hq, hnext⟩ := mergeOnce_counts (f := forestOf s) h2 hsum
    have hmerge : canMerge (forestOf s) = true := by
      simp [canMerge, forestOf, hn, Nat.lt_of_succ_le h2]
    have hstep : stepBuildMerge (goTo .buildMerge s) =
        .next (goTo .buildMerge (withForest (mergeOnce (forestOf s)) s)) :=
      (if_neg (by change s.q.length ≠ 1; omega)).trans (if_pos hmerge)
    refine .step hstep rfl (ih (withForest (mergeOnce (forestOf s)) s) ?_ ?_)
    · exact hq.trans (by change s.q.length - 1 = _; omega)
    · change (mergeOnce (forestOf s)).q.length + (mergeOnce (forestOf s)).nextNode.toNat = 512
      rw [hq, hnext]
      change s.q.length - 1 + (s.nextNode.toNat + 1) = 512
      omega

/-! ### DERIVE_CODES -/

section
variable {nodes : Vector Node 511} {n : NodeIdx}

theorem visit_leaf (hn : nodes[n].leaf = true) (fuel : Nat) (c : List Bool) (t : Vector Code 256) :
    visit nodes fuel n c t = some (setAt t (symbolOf n) (codeOfPath c)) := by
  cases fuel <;> exact if_pos hn

theorem visit_tooDeep (hn : nodes[n].leaf = false) (c : List Bool) (t : Vector Code 256) :
    visit nodes 0 n c t = none := if_neg (ne_true_of_eq_false hn)

theorem visit_internal (hn : nodes[n].leaf = false) (fuel : Nat) (c : List Bool) (t : Vector Code 256) :
    visit nodes (fuel + 1) n c t =
      (visit nodes fuel nodes[n].left (c ++ [false]) t).bind (visit nodes fuel nodes[n].right (c ++ [true])) := by
  rw [visit, if_neg (ne_true_of_eq_false hn)]
  cases visit nodes fuel nodes[n].left (c ++ [false]) t <;> rfl

theorem descend_leaf (hn : nodes[n].leaf = true) (fuel : Nat) (c : List Bool) (stack : List (NodeIdx × List Bool)) :
    descend nodes fuel n c stack = some (n, c, stack) := by
  cases fuel <;> exact if_pos hn

theorem descend_tooDeep (hn : nodes[n].leaf = false) (c : List Bool) (stack : List (NodeIdx × List Bool)) :
    descend nodes 0 n c stack = none := if_neg (ne_true_of_eq_false hn)

/-- Going down from an internal node is going down from its left child with the right one on the path stack. -/
theorem descend_internal (hn : nodes[n].leaf = false) (fuel : Nat) (c : List Bool)
    (stack : List (NodeIdx × List Bool)) :
    descend nodes (fuel + 1) n c stack =
      descend nodes fuel nodes[n].left (c ++ [false]) ((nodes[n].right, c ++ [true]) :: stack) :=
  if_neg (ne_true_of_eq_false hn)

end

theorem deriveFinish_goTo (p : Phase) (s : State) : deriveFinish (goTo p s) = deriveFinish s :=
  finishElement_goTo p { s with codesValid := true }

theorem runningStep_deriveVisit (stack : List (NodeIdx × List Bool)) (s : State) :
    runningStep (goTo (.deriveVisit stack) s) = deriveVisit stack s := by
  cases stack with
  | nil => exact congrArg Host.Outcome.next (deriveFinish_goTo _ s)
  | cons top rest => rfl

theorem deriveVisit_leaf {s : State} {n : NodeIdx} (hn : s.nodes[n].leaf = true) (c : List Bool)
    (rest : List (NodeIdx × List Bool)) :
    deriveVisit ((n, c) :: rest) s =
      .next { s with codes := setAt s.codes (symbolOf n) (codeOfPath c), phase := .deriveVisit rest } := by
  simp only [deriveVisit, descend_leaf hn]

theorem deriveVisit_tooDeep {s : State} {n : NodeIdx} (hn : s.nodes[n].leaf = false) {c : List Bool}
    (hc : c.length = 255) (rest : List (NodeIdx × List Bool)) :
    deriveVisit ((n, c) :: rest) s = .fault .pathTooDeep := by
  simp only [deriveVisit, hc, Nat.sub_self, descend_tooDeep hn]

theorem deriveVisit_internal {s : State} {n : NodeIdx} (hn : s.nodes[n].leaf = false) {c : List Bool}
    (hc : c.length < 255) (rest : List (NodeIdx × List Bool)) :
    deriveVisit ((n, c) :: rest) s =
      deriveVisit ((s.nodes[n].left, c ++ [false]) :: (s.nodes[n].right, c ++ [true]) :: rest) s := by
  have hfuel : 255 - c.length = 255 - (c ++ [false]).length + 1 := by
    rw [List.length_append, List.length_singleton]
    omega
  simp only [deriveVisit, hfuel, descend_internal hn]

/-- The visit of one subtree on the path stack: where it succeeds the run goes on with the codes it gives, and where a
path is too long the model stops. -/
theorem runsTo_visit (fuel : Nat) (n : NodeIdx) (c : List Bool) (rest : List (NodeIdx × List Bool)) (s : State)
    (r : Result) (hfuel : c.length + fuel = 255)
    (some_run : ∀ t, visit s.nodes fuel n c s.codes = some t →
      RunsTo (goTo (.deriveVisit rest) { s with codes := t }) r)
    (none_run : visit s.nodes fuel n c s.codes = none → r = .fault .pathTooDeep) :
    RunsTo (goTo (.deriveVisit ((n, c) :: rest)) s) r := by
  induction fuel generalizing n c rest s with
  | zero =>
    cases hn : s.nodes[n].leaf with
    | true => exact .step (deriveVisit_leaf (s := goTo _ s) hn c rest) rfl (some_run _ (visit_leaf hn 0 c _))
    | false =>
      rw [none_run (visit_tooDeep hn c _)]
      exact .fault (deriveVisit_tooDeep (s := goTo _ s) hn hfuel rest)
  | succ fuel ih =>
    cases hn : s.nodes[n].leaf with
    | true => exact .step (deriveVisit_leaf (s := goTo _ s) hn c rest) rfl (some_run _ (visit_leaf hn _ c _))
    | false =>
      rw [visit_internal hn] at some_run none_run
      have hlen (bit : Bool) : (c ++ [bit]).length + fuel = 255 := by
        rw [List.length_append, List.length_singleton]
        omega
      have hc : c.length < 255 := by omega
      refine .congr (s' := goTo (.deriveVisit
        ((s.nodes[n].left, c ++ [false]) :: (s.nodes[n].right, c ++ [true]) :: rest)) s) ?_ rfl ?_
      · rw [runningStep_deriveVisit, runningStep_deriveVisit]
        exact deriveVisit_internal hn hc rest
      refine ih _ _ _ s (hlen false) (fun t ht => ?_) fun h => none_run (by rw [h]; rfl)
      rw [ht] at some_run none_run
      exact ih _ _ _ { s with codes := t } (hlen true) some_run none_run

/-! ### WRITE_HEADER -/

/-- The header byte by byte: the bytes of the first `m` counters are the first `4 m` bytes. -/
theorem flatMap_counterBytes (freq : Vector Word 256) (m : Nat) :
    (List.range m).flatMap (fun n => counterBytes (getAt freq (BitVec.ofNat 8 n))) =
      (List.range (4 * m)).map (headerByteAt freq) := by
  induction m with
  | zero => rfl
  | succ m ih =>
    have h0 : headerByteAt freq (4 * m) = counterByte (getAt freq (BitVec.ofNat 8 m)) 0 := by
      rw [headerByteAt, show 4 * m / 4 = m by omega, show 4 * m % 4 = 0 by omega]
    have h1 : headerByteAt freq (4 * m + 1) = counterByte (getAt freq (BitVec.ofNat 8 m)) 1 := by
      rw [headerByteAt, show (4 * m + 1) / 4 = m by omega, show (4 * m + 1) % 4 = 1 by omega]
    have h2 : headerByteAt freq (4 * m + 2) = counterByte (getAt freq (BitVec.ofNat 8 m)) 2 := by
      rw [headerByteAt, show (4 * m + 2) / 4 = m by omega, show (4 * m + 2) % 4 = 2 by omega]
    have h3 : headerByteAt freq (4 * m + 3) = counterByte (getAt freq (BitVec.ofNat 8 m)) 3 := by
      rw [headerByteAt, show (4 * m + 3) / 4 = m by omega, show (4 * m + 3) % 4 = 3 by omega]
    rw [List.range_succ, List.flatMap_append, ih, show 4 * (m + 1) = 4 * m + 4 by omega, List.range_add]
    simp [counterBytes, h0, h1, h2, h3, List.range_succ]

theorem headerBytesOf_eq (freq : Vector Word 256) :
    headerBytesOf freq = (List.range' 0 1024).map (headerByteAt freq) := by
  rw [← List.range_eq_range', headerBytesOf, symbols, List.flatMap_map]
  exact flatMap_counterBytes freq 256

theorem outWriteAll_cons (b : Byte) (bytes : List Byte) (s : State) :
    outWriteAll (b :: bytes) s = outWriteAll bytes (outWrite b s) := by
  have hcount : s.outCount + BitVec.ofNat 32 (b :: bytes).length =
      s.outCount + 1 + BitVec.ofNat 32 bytes.length := by
    rw [List.length_cons, Nat.add_comm, BitVec.ofNat_add, BitVec.add_assoc]
    rfl
  simp only [outWriteAll, outWrite, hcount, List.append_assoc, List.singleton_append]

theorem stepHeaderByte_next {n : Nat} (h : n + 1 < 1024) (s : State) :
    stepHeaderByte n s = goTo (.headerByte (n + 1)) (outWrite (headerByteAt s.freq n) s) := by
  rw [stepHeaderByte, if_pos h]

theorem stepHeaderByte_last (s : State) :
    stepHeaderByte 1023 s = goTo .headerSum (outWrite (headerByteAt s.freq 1023) s) := rfl

/-- The header bytes from `n` on, one a micro-step. -/
theorem runsTo_headerBytes (k n : Nat) (s : State) (r : Result) (hk : n + (k + 1) = 1024)
    (run : RunsTo (goTo .headerSum (outWriteAll ((List.range' n (k + 1)).map (headerByteAt s.freq)) s)) r) :
    RunsTo (goTo (.headerByte n) s) r := by
  induction k generalizing n s with
  | zero =>
    obtain rfl : n = 1023 := by omega
    exact .step (congrArg Host.Outcome.next (stepHeaderByte_last (goTo _ s))) rfl run
  | succ k ih =>
    rw [List.range'_succ, List.map_cons, outWriteAll_cons] at run
    exact .step (congrArg Host.Outcome.next (stepHeaderByte_next (by omega) (goTo _ s))) rfl
      (ih (n + 1) (outWrite (headerByteAt s.freq n) s) (by omega) run)

theorem headerLast_goTo (p : Phase) (s : State) : headerLast (goTo p s) = headerLast s :=
  finishElement_goTo p (outWrite (s.lastBits.setWidth 8) s)

@[simp] theorem control_headerSum (s : State) : control (headerSum s) = control s := by
  simp only [control, headerSum]

theorem runsTo_headerSum (s : State) : RunsTo (goTo .headerSum s) (.next (headerLast (headerSum s))) := by
  have hstep : runningStep (goTo .headerSum s) = .next (goTo .headerLast (headerSum s)) := rfl
  have hlast : runningStep (goTo .headerLast (headerSum s)) = .next (headerLast (headerSum s)) :=
    congrArg Host.Outcome.next (headerLast_goTo _ _)
  refine .step hstep ?_ (.finish hlast ?_)
  · rw [control_goTo, control_goTo, control_headerSum]
  · rw [control_goTo, control_outWrite]

theorem runsTo_writeHeader (s : State) :
    RunsTo (goTo (.headerByte 0) s) (.next (headerLast (headerSum (outWriteAll (headerBytesOf s.freq) s)))) := by
  have hbytes : (List.range' 0 (1023 + 1)).map (headerByteAt s.freq) = headerBytesOf s.freq :=
    (headerBytesOf_eq s.freq).symm
  refine runsTo_headerBytes 1023 0 s _ (by omega) ?_
  rw [hbytes]
  exact runsTo_headerSum _

/-! ### ENCODE_BODY -/

theorem unread_emitGroups (k : Nat) (s : State) : unread (emitGroups k s) = unread s := by
  induction k generalizing s with
  | zero => rfl
  | succ k ih => exact ih (emitGroup s)

theorem packNext_emit {s : State} (h : 8 ≤ s.acc.length) : packNext s = goTo .packEmit s := by
  rw [packNext, if_pos h]

theorem packNext_read {s : State} (h : s.acc.length < 8) : packNext s = goTo .packRead s := by
  rw [packNext, if_neg (Nat.not_le.2 h)]

/-- ENCODE_BODY drains the whole bytes of ACC before it reads again. -/
theorem runsTo_drain (k : Nat) (s : State) (r : Result) (hk : s.acc.length / 8 = k)
    (run : RunsTo (goTo .packRead (emitGroups k s)) r) : RunsTo (packNext s) r := by
  induction k generalizing s with
  | zero =>
    rw [packNext_read (by omega)]
    exact run
  | succ k ih =>
    have hdrop : (emitGroup s).acc.length = s.acc.length - 8 := List.length_drop
    rw [packNext_emit (by omega)]
    have hstep : runningStep (goTo .packEmit s) = .next (packNext (emitGroup s)) := rfl
    exact .step hstep rfl (ih (emitGroup s) (by omega) run)

theorem packFlush_goTo (p : Phase) (s : State) : packFlush (goTo p s) = packFlush s :=
  finishElement_goTo p { outWrite (bitsToByte s.acc) s with acc := [] }

theorem stepPackRead_done {s : State} (h : unread s = []) (hacc : s.acc = []) : stepPackRead s = finishElement s := by
  simp [stepPackRead, inRead_eos h, hacc]

theorem stepPackRead_partial {s : State} (h : unread s = []) (hacc : s.acc ≠ []) :
    stepPackRead s = goTo .packFlush s := by
  simp [stepPackRead, inRead_eos h, hacc]

theorem stepPackRead_cons {s : State} {b : Byte} {rest : List Byte} (h : unread s = b :: rest) :
    stepPackRead s = packNext (packByte b (consume s)) := by
  simp only [stepPackRead, inRead_cons h]

theorem runsTo_packEnd (s : State) (h : unread s = []) : RunsTo (goTo .packRead s) (.next (packEnd s)) := by
  by_cases hacc : s.acc = []
  · rw [packEnd, if_pos (by rw [hacc]; rfl)]
    exact .finish (congrArg Host.Outcome.next
      ((stepPackRead_done (s := goTo .packRead s) h hacc).trans (finishElement_goTo _ s))) rfl
  · rw [packEnd, if_neg (by simpa using hacc)]
    exact .step (congrArg Host.Outcome.next (stepPackRead_partial (s := goTo .packRead s) h hacc)) rfl
      (.finish (congrArg Host.Outcome.next (packFlush_goTo .packFlush s)) rfl)

theorem runsTo_packLoop (bytes : List Byte) (s : State) (h : unread s = bytes) :
    RunsTo (goTo .packRead s) (.next (packLoop bytes s)) := by
  induction bytes generalizing s with
  | nil => exact runsTo_packEnd s h
  | cons b rest ih =>
    have hstep : runningStep (goTo .packRead s) = .next (packNext (packByte b (consume s))) :=
      congrArg Host.Outcome.next (stepPackRead_cons (s := goTo .packRead s) h)
    refine .step hstep rfl (runsTo_drain _ (packByte b (consume s)) _ rfl ?_)
    exact ih _ ((unread_emitGroups _ _).trans (unread_consume h))

/-! ### READ_HEADER -/

theorem control_storeCounter (n : Nat) (v : Word) (s : State) : control (storeCounter n v s) = control s := by
  unfold storeCounter
  split <;> rfl

theorem storeCounter_goTo (n : Nat) (v : Word) (p : Phase) (s : State) :
    storeCounter n v (goTo p s) = goTo p (storeCounter n v s) := by
  unfold storeCounter
  split <;> rfl

theorem readHeaderLoop_eos {s : State} (h : unread s = []) (k n : Nat) (v : Word) :
    readHeaderLoop (k + 1) n v s = abort .headerTruncated (BitVec.ofNat 32 n) s := by
  simp only [readHeaderLoop, inRead_eos h]

theorem readHeaderLoop_cons {s : State} {b : Byte} {rest : List Byte} (h : unread s = b :: rest) (k n : Nat)
    (v : Word) :
    readHeaderLoop (k + 1) n v s = readHeaderLoop k (n + 1) (carryCounter n (shiftInByte v b))
      (storeCounter n (shiftInByte v b) (consume s)) := by
  simp only [readHeaderLoop, inRead_cons h]

theorem lastBits_absent {s : State} (h : unread s = []) (n : Nat) (v : Word) :
    readHeaderLoop 0 n v s = abort .lastBitsAbsent 1024 s := by
  simp only [readHeaderLoop, inRead_eos h]

theorem lastBits_outOfRange {s : State} {b : Byte} {rest : List Byte} (h : unread s = b :: rest) (hb : 7 < b.toNat)
    (n : Nat) (v : Word) : readHeaderLoop 0 n v s = abort .lastBitsRange (b.setWidth 32) (consume s) := by
  simp only [readHeaderLoop, inRead_cons h]
  exact if_pos hb

theorem lastBits_read {s : State} {b : Byte} {rest : List Byte} (h : unread s = b :: rest) (hb : b.toNat ≤ 7)
    (n : Nat) (v : Word) :
    readHeaderLoop 0 n v s = finishElement { consume s with lastBits := b.setWidth 3 } := by
  simp only [readHeaderLoop, inRead_cons h]
  exact if_neg (Nat.not_lt.2 hb)

theorem runsTo_readLast (s : State) (n : Nat) (v : Word) :
    RunsTo (goTo .readLast s) (.next (readHeaderLoop 0 n v s)) := by
  cases h : unread s with
  | nil =>
    rw [lastBits_absent h]
    exact .raise (congrArg Host.Outcome.next (lastBits_absent (s := goTo .readLast s) h 0 0)) rfl
  | cons b rest =>
    by_cases hb : b.toNat ≤ 7
    · rw [lastBits_read h hb]
      have hstep := (lastBits_read (s := goTo .readLast s) h hb 0 0).trans
        (finishElement_goTo .readLast { consume s with lastBits := b.setWidth 3 })
      exact .finish (congrArg Host.Outcome.next hstep) rfl
    · rw [lastBits_outOfRange h (Nat.lt_of_not_le hb)]
      exact .raise (congrArg Host.Outcome.next
        (lastBits_outOfRange (s := goTo .readLast s) h (Nat.lt_of_not_le hb) 0 0)) rfl

/-- The first read of READ_HEADER clears the flags (R191). -/
def clearAtFirst (n : Nat) (s : State) : State := if n = 0 then clearAllValid s else s

theorem clearAtFirst_later {n : Nat} (hn : n ≠ 0) (s : State) : clearAtFirst n s = s := if_neg hn

theorem control_clearAtFirst (n : Nat) (s : State) : control (clearAtFirst n s) = control s := by
  unfold clearAtFirst
  split <;> rfl

theorem unread_clearAtFirst (n : Nat) (s : State) : unread (clearAtFirst n s) = unread s := by
  unfold clearAtFirst
  split <;> rfl

theorem clearAtFirst_goTo (n : Nat) (p : Phase) (s : State) :
    clearAtFirst n (goTo p s) = goTo p (clearAtFirst n s) := by
  unfold clearAtFirst
  split <;> rfl

theorem stepReadCounter_eos {s : State} (h : unread s = []) (n : Nat) (v : Word) :
    stepReadCounter n v s = abort .headerTruncated (BitVec.ofNat 32 n) (clearAtFirst n s) := by
  rw [← unread_clearAtFirst n] at h
  rw [stepReadCounter, ← clearAtFirst, inRead_eos h]

theorem stepReadCounter_cons {s : State} {b : Byte} {rest : List Byte} (h : unread s = b :: rest) (n : Nat) (v : Word) :
    stepReadCounter n v s =
      goTo (if n + 1 < 1024 then .readCounter (n + 1) (carryCounter n (shiftInByte v b)) else .readLast)
        (storeCounter n (shiftInByte v b) (consume (clearAtFirst n s))) := by
  rw [← unread_clearAtFirst n] at h
  rw [stepReadCounter, ← clearAtFirst, inRead_cons h]

/-- The header bytes from `n` on, one a micro-step, once the flags are cleared. -/
theorem runsTo_readHeaderLoop (k n : Nat) (v : Word) (s : State) (hk : n + (k + 1) = 1024)
    (hclear : clearAtFirst n s = s) :
    RunsTo (goTo (.readCounter n v) s) (.next (readHeaderLoop (k + 1) n v s)) := by
  cases h : unread s with
  | nil =>
    rw [readHeaderLoop_eos h]
    have hstep := stepReadCounter_eos (s := goTo (.readCounter n v) s) h n v
    rw [clearAtFirst_goTo, hclear, abort_goTo] at hstep
    exact .raise (congrArg Host.Outcome.next hstep) rfl
  | cons b rest =>
    rw [readHeaderLoop_cons h]
    have hstep := stepReadCounter_cons (s := goTo (.readCounter n v) s) h n v
    rw [clearAtFirst_goTo, hclear, consume_goTo, storeCounter_goTo, goTo_goTo] at hstep
    refine .step (congrArg Host.Outcome.next hstep) (control_storeCounter n _ _) ?_
    cases k with
    | zero =>
      rw [if_neg (by omega)]
      exact runsTo_readLast _ _ _
    | succ k =>
      rw [if_pos (by omega)]
      exact runsTo_readHeaderLoop k (n + 1) _ _ (by omega) (clearAtFirst_later (by omega) _)

/-! ### DECODE_BODY -/

/-- One bit of a walk that is on the tree: it reaches a leaf, or an internal node. -/
def walkOn (bit : Bool) (s : State) : State :=
  if s.nodes[childOf s.nodes s.walk bit].leaf then emitSymbol (childOf s.nodes s.walk bit) s
  else { s with walk := childOf s.nodes s.walk bit }

theorem walkBit_offTree {s : State} (h : s.nodes[s.walk].leaf = true) (bit : Bool) :
    walkBit bit s = releaseWalk (abort .walkOffTree (BitVec.ofNat 32 s.walk.val) s) := if_pos h

theorem walkBit_onTree {s : State} (h : s.nodes[s.walk].leaf = false) (bit : Bool) : walkBit bit s = walkOn bit s :=
  if_neg (ne_true_of_eq_false h)

theorem walkOn_cases (bit : Bool) (s : State) :
    (s.nodes[childOf s.nodes s.walk bit].leaf = true ∧ walkOn bit s = emitSymbol (childOf s.nodes s.walk bit) s) ∨
    (s.nodes[childOf s.nodes s.walk bit].leaf = false ∧
      walkOn bit s = { s with walk := childOf s.nodes s.walk bit }) := by
  unfold walkOn
  split
  next h => exact .inl ⟨h, rfl⟩
  next h => exact .inr ⟨eq_false_of_ne_true h, rfl⟩

theorem walkOn_goTo (bit : Bool) (p : Phase) (s : State) : walkOn bit (goTo p s) = goTo p (walkOn bit s) := by
  unfold walkOn
  by_cases h : s.nodes[childOf s.nodes s.walk bit].leaf = true
  · rw [if_pos h]
    exact if_pos h
  · rw [if_neg h]
    exact if_neg h

theorem control_walkOn (bit : Bool) (s : State) : control (walkOn bit s) = control s := by
  rcases walkOn_cases bit s with ⟨-, h⟩ | ⟨-, h⟩ <;> rw [h] <;> rfl

theorem unread_walkOn (bit : Bool) (s : State) : unread (walkOn bit s) = unread s := by
  rcases walkOn_cases bit s with ⟨-, h⟩ | ⟨-, h⟩ <;> rw [h] <;> rfl

theorem walkFinish_goTo (p : Phase) (s : State) : walkFinish (goTo p s) = walkFinish s :=
  finishElement_goTo p (releaseWalk
    { s with trailPartial := decide (s.walk ≠ s.root), decDone := true, pendingValid := false })

theorem walkByteDone_goTo (held : Option Byte) (p : Phase) (s : State) :
    walkByteDone held (goTo p s) = walkByteDone held s := by
  cases held with
  | some b => rfl
  | none => exact walkFinish_goTo p s

theorem stepWalkBits_offTree {s : State} (h : s.nodes[s.walk].leaf = true) (k : Nat) (held : Option Byte) :
    stepWalkBits (k + 1) held s = releaseWalk (abort .walkOffTree (BitVec.ofNat 32 s.walk.val) s) := by
  simp only [stepWalkBits, walkBit_offTree h]
  rfl

/-- A bit of the walk that is not PENDING's last. -/
theorem stepWalkBits_more {s : State} (h : s.nodes[s.walk].leaf = false) (hb : s.busy = true) (k : Nat)
    (held : Option Byte) :
    stepWalkBits (k + 2) held s = goTo (.walkBits (k + 1) held) (walkOn (s.pending.getLsbD (k + 1)) s) := by
  simp only [stepWalkBits, walkBit_onTree h]
  exact if_pos (busy_of_control (control_walkOn _ s) hb)

/-- PENDING's last bit. -/
theorem stepWalkBits_last {s : State} (h : s.nodes[s.walk].leaf = false) (hb : s.busy = true) (held : Option Byte) :
    stepWalkBits 1 held s = walkByteDone held (walkOn (s.pending.getLsbD 0) s) := by
  simp only [stepWalkBits, walkBit_onTree h]
  exact if_pos (busy_of_control (control_walkOn _ s) hb)

theorem walkByte_offTree {s : State} (h : s.nodes[s.walk].leaf = true) (k : Nat) :
    walkByte (k + 1) s = releaseWalk (abort .walkOffTree (BitVec.ofNat 32 s.walk.val) s) := by
  simp only [walkByte, walkBit_offTree h]
  rfl

theorem walkByte_onTree {s : State} (h : s.nodes[s.walk].leaf = false) (hb : s.busy = true) (k : Nat) :
    walkByte (k + 1) s = walkByte k (walkOn (s.pending.getLsbD k) s) := by
  simp only [walkByte, walkBit_onTree h]
  exact if_pos (busy_of_control (control_walkOn _ s) hb)

theorem unread_walkByte (k : Nat) (s : State) (hb : s.busy = true) : unread (walkByte k s) = unread s := by
  induction k generalizing s with
  | zero => rfl
  | succ k ih =>
    cases h : s.nodes[s.walk].leaf with
    | true =>
      rw [walkByte_offTree h]
      rfl
    | false =>
      rw [walkByte_onTree h hb, ih _ (busy_of_control (control_walkOn _ s) hb), unread_walkOn]

theorem runsTo_offTree {s : State} (h : s.nodes[s.walk].leaf = true) (k : Nat) (held : Option Byte) :
    RunsTo (goTo (.walkBits (k + 1) held) s) (.next (walkByte (k + 1) s)) := by
  rw [walkByte_offTree h]
  exact .raise (congrArg Host.Outcome.next
    (stepWalkBits_offTree (s := goTo (.walkBits (k + 1) held) s) h k held)) rfl

/-- The bits of PENDING, one a micro-step: the run ends off the tree, or it is the run from the last bit, which is
joined by what follows the byte. -/
theorem runsTo_walkBits (k : Nat) (held : Option Byte) (s : State) (r : Result) (hb : s.busy = true)
    (off : (walkByte (k + 1) s).busy = false → r = .next (walkByte (k + 1) s))
    (done : (walkByte (k + 1) s).busy = true → ∀ s',
      runningStep s' = .next (walkByteDone held (walkByte (k + 1) s)) →
        control s' = control (walkByte (k + 1) s) → RunsTo s' r) :
    RunsTo (goTo (.walkBits (k + 1) held) s) r := by
  induction k generalizing s with
  | zero =>
    cases h : s.nodes[s.walk].leaf with
    | true =>
      rw [off (by rw [walkByte_offTree h]; rfl)]
      exact runsTo_offTree h 0 held
    | false =>
      have hu : walkByte 1 s = walkOn (s.pending.getLsbD 0) s := walkByte_onTree h hb 0
      have hc : control (walkByte 1 s) = control s := hu ▸ control_walkOn _ s
      have hstep := stepWalkBits_last (s := goTo (.walkBits 1 held) s) h hb held
      rw [walkOn_goTo, walkByteDone_goTo] at hstep
      exact done (busy_of_control hc hb) _ (congrArg Host.Outcome.next (hstep.trans (by rw [hu]; rfl))) hc.symm
  | succ k ih =>
    cases h : s.nodes[s.walk].leaf with
    | true =>
      rw [off (by rw [walkByte_offTree h]; rfl)]
      exact runsTo_offTree h (k + 1) held
    | false =>
      have hc : control (walkOn (s.pending.getLsbD (k + 1)) s) = control s := control_walkOn _ s
      rw [walkByte_onTree h hb] at off done
      have hstep := stepWalkBits_more (s := goTo (.walkBits (k + 2) held) s) h hb k held
      rw [walkOn_goTo, goTo_goTo] at hstep
      exact .step (congrArg Host.Outcome.next hstep) hc (ih _ (busy_of_control hc hb) off done)

theorem stepWalkRead_eos {s : State} (h : unread s = []) :
    stepWalkRead s = if s.pendingValid then goTo (.walkBits (finalBits s.lastBits) none) s else walkFinish s := by
  simp only [stepWalkRead, inRead_eos h]

theorem stepWalkRead_cons {s : State} {b : Byte} {rest : List Byte} (h : unread s = b :: rest) :
    stepWalkRead s =
      if s.pendingValid then goTo (.walkBits 8 (some b)) (consume s) else goTo .walkRead (holdByte b (consume s)) := by
  simp only [stepWalkRead, inRead_cons h]
  rfl

theorem finalBits_bounds (lastBits : BitVec 3) : 1 ≤ finalBits lastBits ∧ finalBits lastBits ≤ 8 := by
  revert lastBits
  decide

theorem runsTo_walkEnd (s : State) (h : unread s = []) (hb : s.busy = true) :
    RunsTo (goTo .walkRead s) (.next (walkEnd s)) := by
  have hstep := stepWalkRead_eos (s := goTo .walkRead s) h
  cases hp : s.pendingValid with
  | false =>
    rw [show (goTo .walkRead s).pendingValid = false from hp, if_neg Bool.false_ne_true, walkFinish_goTo] at hstep
    rw [walkEnd, hp, if_neg Bool.false_ne_true]
    exact .finish (congrArg Host.Outcome.next hstep) rfl
  | true =>
    obtain ⟨k, hk⟩ : ∃ k, finalBits s.lastBits = k + 1 := ⟨finalBits s.lastBits - 1, by
      have := finalBits_bounds s.lastBits
      omega⟩
    rw [show (goTo .walkRead s).pendingValid = true from hp, if_pos rfl, goTo_goTo,
      show finalBits (goTo .walkRead s).lastBits = k + 1 from hk] at hstep
    simp only [walkEnd, hp, if_true, hk]
    refine .step (congrArg Host.Outcome.next hstep) rfl (runsTo_walkBits k none s _ hb ?_ ?_)
    · intro hoff
      rw [hoff, if_neg Bool.false_ne_true]
    · intro hon s' hs' hc
      rw [hon, if_pos rfl]
      exact .finish hs' hc.symm

theorem runsTo_walkLoop (bytes : List Byte) (s : State) (h : unread s = bytes) (hb : s.busy = true) :
    RunsTo (goTo .walkRead s) (.next (walkLoop bytes s)) := by
  induction bytes generalizing s with
  | nil => exact runsTo_walkEnd s h hb
  | cons b rest ih =>
    have hstep := stepWalkRead_cons (s := goTo .walkRead s) h
    have hloop : walkLoop (b :: rest) s =
        (let u := if s.pendingValid then walkByte 8 (consume s) else consume s
         if u.busy then walkLoop rest (holdByte b u) else u) := rfl
    cases hp : s.pendingValid with
    | false =>
      rw [show (goTo .walkRead s).pendingValid = false from hp, if_neg Bool.false_ne_true] at hstep
      rw [hloop, hp]
      simp only [Bool.false_eq_true, if_false, show (consume s).busy = true from hb, if_true]
      exact .step (congrArg Host.Outcome.next hstep) rfl (ih (holdByte b (consume s)) (unread_consume h) hb)
    | true =>
      rw [show (goTo .walkRead s).pendingValid = true from hp, if_pos rfl, consume_goTo, goTo_goTo] at hstep
      rw [hloop, hp]
      simp only [if_true]
      refine .step (congrArg Host.Outcome.next hstep) rfl (runsTo_walkBits 7 (some b) (consume s) _ hb ?_ ?_)
      · intro hoff
        rw [hoff, if_neg Bool.false_ne_true]
      · intro hon s' hs' hc
        rw [hon, if_pos rfl]
        exact .step hs' hc.symm (ih (holdByte b _) ((unread_walkByte 8 (consume s) hb).trans (unread_consume h)) hon)

/-! ### VERIFY -/

theorem verifyLoop_cons (sym : Byte) (rest : List Byte) (s : State) :
    verifyLoop (sym :: rest) s = if countsAgree sym s then verifyLoop rest s else mismatch sym s := rfl

theorem stepVerifyAt_mismatch {sym : Byte} {s : State} (h : countsAgree sym s = false) :
    stepVerifyAt sym s = mismatch sym s := if_neg (ne_true_of_eq_false h)

theorem stepVerifyAt_last {s : State} (h : countsAgree 255 s = true) : stepVerifyAt 255 s = finishElement s :=
  (if_pos h).trans (if_pos rfl)

theorem stepVerifyAt_next {n : Nat} {s : State} (hn : n < 255) (h : countsAgree (BitVec.ofNat 8 n) s = true) :
    stepVerifyAt (BitVec.ofNat 8 n) s = goTo (.verifyAt (BitVec.ofNat 8 (n + 1))) s := by
  have hne : BitVec.ofNat 8 n ≠ 0xFF := by
    intro he
    have := congrArg BitVec.toNat he
    rw [BitVec.toNat_ofNat, show (0xFF : Byte).toNat = 255 from rfl] at this
    omega
  rw [BitVec.ofNat_add]
  exact (if_pos h).trans (if_neg hne)

/-- The comparisons from symbol `n` on, one a micro-step. -/
theorem runsTo_verifyLoop (k n : Nat) (s : State) (hk : n + (k + 1) = 256) :
    RunsTo (goTo (.verifyAt (BitVec.ofNat 8 n)) s)
      (.next (verifyLoop ((List.range' n (k + 1)).map (BitVec.ofNat 8)) s)) := by
  rw [List.range'_succ, List.map_cons, verifyLoop_cons]
  cases h : countsAgree (BitVec.ofNat 8 n) s with
  | false =>
    rw [if_neg Bool.false_ne_true]
    exact .raise (congrArg Host.Outcome.next (stepVerifyAt_mismatch (s := goTo _ s) h)) rfl
  | true =>
    rw [if_pos rfl]
    cases k with
    | zero =>
      obtain rfl : n = 255 := by omega
      have hstep := (stepVerifyAt_last (s := goTo (.verifyAt 255) s) h).trans (finishElement_goTo _ s)
      exact .finish (congrArg Host.Outcome.next hstep) rfl
    | succ k =>
      have hstep := stepVerifyAt_next (s := goTo (.verifyAt (BitVec.ofNat 8 n)) s) (by omega) h
      exact .step (congrArg Host.Outcome.next hstep) rfl (runsTo_verifyLoop k (n + 1) s (by omega))

/-! ### Every element -/

theorem runsTo_countBody (s : State) (hb : s.busy = true) : RunsTo (goTo .countClear s) (countBody s) :=
  .step rfl rfl (runsTo_countLoop _ (countClear s) rfl hb)

theorem runsTo_buildBody (s : State) : RunsTo (goTo .buildInit s) (buildBody s) := by
  have hmerges := runsTo_merges 255 (buildInit s) leaves_length (by
    change leaves.length + (256 : BitVec 10).toNat = 512
    rw [leaves_length]
    rfl)
  have hbody : buildBody s =
      .next (buildFinish (withForest (mergeTimes (leaves.length - 1) (forestOf (buildInit s))) (buildInit s))) := rfl
  rw [hbody, leaves_length]
  exact .step rfl rfl hmerges

theorem runsTo_deriveBody (s : State) : RunsTo (goTo .deriveCheck s) (deriveBody s) := by
  refine .require (fun t => goTo (.deriveVisit [(t.root, [])]) t) rfl rfl ?_
  rw [goTo_goTo]
  cases hv : visit s.nodes Config.maxCodeLen s.root [] s.codes with
  | none =>
    refine runsTo_visit 255 s.root [] [] s _ rfl (fun t ht => ?_) (fun _ => rfl)
    cases hv.symm.trans ht
  | some codes =>
    refine runsTo_visit 255 s.root [] [] s _ rfl (fun t ht => ?_) (fun h => ?_)
    · cases hv.symm.trans ht
      exact .finish (runningStep_deriveVisit [] { s with codes := codes }) rfl
    · cases hv.symm.trans h

theorem runsTo_writeHeaderBody (s : State) : RunsTo (goTo .headerCheck s) (writeHeaderBody s) :=
  .require (goTo (.headerByte 0)) rfl rfl (runsTo_writeHeader s)

theorem runsTo_encodeBody (s : State) : RunsTo (goTo .packCheck s) (encodeBodyBody s) :=
  .require (fun t => goTo .packRead { t with acc := [] }) rfl rfl (runsTo_packLoop _ { s with acc := [] } rfl)

theorem runsTo_readHeaderBody (s : State) : RunsTo (goTo (.readCounter 0 0) s) (readHeaderBody s) :=
  .congr (s' := goTo (.readCounter 0 0) (clearAllValid s)) rfl rfl
    (runsTo_readHeaderLoop 1023 0 0 (clearAllValid s) (by omega) rfl)

theorem runsTo_decodeBodyBody (s : State) (hb : s.busy = true) : RunsTo (goTo .walkCheck s) (decodeBodyBody s) :=
  .require (goTo .walkClear) rfl rfl
    (.step rfl rfl (runsTo_walkLoop _ (walkClear s) rfl hb))

theorem runsTo_verifyBody (s : State) : RunsTo (goTo .verifyCheck s) (verifyBody s) := by
  refine .require (goTo (.verifyAt 0)) rfl rfl ?_
  have h := runsTo_verifyLoop 255 0 s (by omega)
  rwa [← List.range_eq_range'] at h

/-- From its start an element runs to what its body answers. -/
theorem runsTo_elementBody {e : Instr} {s : State} (hb : s.busy = true) (hp : s.phase = startPhase e)
    (he : startPhase e ≠ .idle) : RunsTo s (elementBody e s) := by
  suffices h : RunsTo (goTo (startPhase e) s) (elementBody e s) by rwa [goTo_of_phase hp] at h
  cases e with
  | reset | encode | decode => exact absurd rfl he
  | nop => exact .finish (congrArg Host.Outcome.next (finishElement_goTo .nop s)) rfl
  | rewind => exact .finish (congrArg Host.Outcome.next (finishElement_goTo .rewind (rewindInput s))) rfl
  | count => exact runsTo_countBody s hb
  | buildTree => exact runsTo_buildBody s
  | deriveCodes => exact runsTo_deriveBody s
  | writeHeader => exact runsTo_writeHeaderBody s
  | encodeBody => exact runsTo_encodeBody s
  | readHeader => exact runsTo_readHeaderBody s
  | decodeBody => exact runsTo_decodeBodyBody s hb
  | verify => exact runsTo_verifyBody s

/-! ### A whole command -/

/-- The result is an end: no command is running any more. -/
def Halted (r : Result) : Prop := ∀ t, r = .next t → t.busy = false

theorem microSteps_halted {k : Nat} {s : State} {r : Result} (h : microSteps k s = r) (hr : Halted r) (j : Nat) :
    microSteps (k + j) s = r := by
  rw [microSteps_add, h]
  cases r with
  | next t => exact microSteps_idle (hr t rfl) j
  | fault f => rfl
  | refused q => rfl

theorem microSteps_succ_busy {s : State} (hb : s.busy = true) (k : Nat) :
    microSteps (k + 1) s = andThen (runningStep s) (microSteps k) := by
  rw [microSteps, microStep_busy hb]

theorem RunsTo.reaches {s : State} {r : Result} (run : RunsTo s r) (hb : s.busy = true) :
    ∃ k, microSteps k s = r := by
  induction run with
  | finish h _ => exact ⟨1, by rw [microSteps_succ_busy hb, h]; rfl⟩
  | raise h _ => exact ⟨1, by rw [microSteps_succ_busy hb, h]; rfl⟩
  | fault h => exact ⟨1, by rw [microSteps_succ_busy hb, h]; rfl⟩
  | step h ht _ ih =>
    obtain ⟨k, hk⟩ := ih (busy_of_control ht hb)
    exact ⟨k + 1, by rw [microSteps_succ_busy hb, h]; exact hk⟩

theorem expansion_length_le (i : Instr) : (expansion i).length ≤ 7 := by
  cases i <;> decide

/-- The elements still to come stand in the command's expansion after the present one. -/
theorem drop_of_laterElements {s : State} {e : Instr} {rest : List Instr} (h : laterElements s = e :: rest) :
    ∃ i, instrOfOpcode s.issuedOp = some i ∧ (expansion i).drop (s.mstep.toNat + 1) = e :: rest ∧
      (s.mstep + 1).toNat = s.mstep.toNat + 1 := by
  unfold laterElements at h
  cases hi : instrOfOpcode s.issuedOp with
  | none => simp [hi] at h
  | some i =>
    simp only [hi] at h
    refine ⟨i, rfl, h, ?_⟩
    have hlen := congrArg List.length h
    have hle := expansion_length_le i
    rw [List.length_drop, List.length_cons] at hlen
    rw [BitVec.toNat_add, show (1 : BitVec 3).toNat = 1 from rfl]
    omega

/-- One element further, one element less is left of the command. -/
theorem laterElements_next {s : State} {e : Instr} {rest : List Instr} (h : laterElements s = e :: rest) :
    laterElements { s with mstep := s.mstep + 1 } = rest := by
  obtain ⟨i, hi, hdrop, hm⟩ := drop_of_laterElements h
  simp only [laterElements, hi, hm]
  rw [← List.drop_drop, hdrop]
  rfl

/-- Where a run of an element goes on, it does so at the start of the command's next element. -/
theorem RunsTo.next_element {s t : State} {r : Result} (run : RunsTo s r) (hr : r = .next t) (hb : t.busy = true) :
    ∃ e, laterElements s = e :: laterElements t ∧ t.phase = startPhase e := by
  induction run with
  | @finish s u h hu =>
    cases hr
    rcases finishElement_cases u with ⟨e, rest, hlater, hfin⟩ | ⟨-, hfin⟩
    · refine ⟨e, ?_, by rw [hfin]; rfl⟩
      rw [← laterElements_of_control hu, hlater, hfin]
      exact congrArg _ (laterElements_next hlater).symm
    · rw [hfin] at hb
      cases hb
  | raise _ ht =>
    cases hr
    cases ht.symm.trans hb
  | fault _ => cases hr
  | step _ ht _ ih =>
    obtain ⟨e, hlater, hp⟩ := ih hr
    exact ⟨e, (laterElements_of_control ht).symm.trans hlater, hp⟩

/-- The micro-steps run a command's remaining elements one after another (30 R106), and then none is running. -/
theorem reaches_runElements (rest : List Instr) (e : Instr) (s : State) (hb : s.busy = true)
    (hp : s.phase = startPhase e) (hlater : laterElements s = rest)
    (hprim : ∀ e' ∈ e :: rest, startPhase e' ≠ .idle) :
    ∃ k, microSteps k s = runElements ((e :: rest).map elementBody) s ∧
      Halted (runElements ((e :: rest).map elementBody) s) := by
  have run : RunsTo s (elementBody e s) := runsTo_elementBody hb hp (hprim e List.mem_cons_self)
  obtain ⟨k, hk⟩ := run.reaches hb
  rw [List.map_cons, runElements]
  cases hr : elementBody e s with
  | fault f => exact ⟨k, hk.trans hr, fun t ht => by cases ht⟩
  | refused q => exact ⟨k, hk.trans hr, fun t ht => by cases ht⟩
  | next t =>
    rw [hr] at hk run
    rw [andThen_next]
    cases ht : t.busy with
    | false =>
      rw [if_neg Bool.false_ne_true]
      exact ⟨k, hk, fun u hu => by cases hu; exact ht⟩
    | true =>
      obtain ⟨e', he', hp'⟩ := run.next_element rfl ht
      rw [hlater] at he'
      cases rest with
      | nil => cases he'
      | cons x rest =>
        obtain ⟨rfl, hrest⟩ := List.cons.inj he'
        obtain ⟨j, hj, hhalt⟩ := reaches_runElements rest x t ht hp' hrest.symm
          fun e' he' => hprim e' (List.mem_cons_of_mem _ he')
        rw [if_pos rfl]
        exact ⟨k + j, by rw [microSteps_add, hk]; exact hj, hhalt⟩

theorem expansion_primitive {i : Instr} (hi : i ≠ .reset) : ∀ e ∈ expansion i, startPhase e ≠ .idle := by
  cases i with
  | reset => exact absurd rfl hi
  | _ => decide

theorem laterElements_accept (i : Instr) (s : State) : laterElements (accept i s) = (expansion i).tail := by
  rw [laterElements_eq (i := i) (n := 0) rfl rfl, List.drop_one]

/-- Every command's micro-steps from its acceptance end where `exec` says. -/
theorem exec_reached {i : Instr} (hi : i ≠ .reset) {s : State} (hb : s.busy = false) :
    (∃ k, microSteps k (accept i s) = exec i s) ∧ Halted (exec i s) := by
  rw [exec_eq_issue hi, issue_idle hb]
  have hlater := laterElements_accept i s
  have hprim := expansion_primitive hi
  cases hexp : expansion i with
  | nil => cases i <;> cases hexp
  | cons e rest =>
    rw [hexp] at hlater hprim
    have hp : (accept i s).phase = startPhase e := by rw [accept_phase, hexp]; rfl
    obtain ⟨k, hk, hhalt⟩ := reaches_runElements rest e (accept i s) rfl hp hlater hprim
    exact ⟨⟨k, hk⟩, hhalt⟩

/-- What acceptance gives and every micro-step keeps holds where a command ends. -/
theorem exec_induction {P : State → Prop} (keeps : ∀ u v, P u → microStep u = .next v → P v) {i : Instr}
    (hi : i ≠ .reset) {s t : State} (hb : s.busy = false) (haccept : P (accept i s)) (h : exec i s = .next t) :
    P t := by
  obtain ⟨⟨k, hk⟩, -⟩ := exec_reached hi hb
  rw [h] at hk
  generalize accept i s = u at hk haccept
  induction k generalizing u with
  | zero =>
    cases hk
    exact haccept
  | succ k ih =>
    obtain ⟨v, hv, hrest⟩ := andThen_eq_next.1 hk
    exact ih v hrest (keeps u v haccept hv)

/-- Settles O51: the micro-steps of one element, and nothing is left of a primitive after it. -/
theorem microStepsRunPrimitives : Obligations.MicroStepsRunPrimitives := by
  intro s i hb hi
  have hi : i ≠ .reset := fun h => hi (h ▸ List.mem_cons_self)
  obtain ⟨⟨k, hk⟩, hhalt⟩ := exec_reached hi hb
  exact ⟨k, microSteps_halted hk hhalt⟩

end Sys2Proof.Machine
end

section
/-! SUPPORT. What one micro-step can do (70_reset_and_hazards.md R262), said once as a relation, and what every
micro-step has in common: the element goes on, or it is finished, or it raises an error (10_state.md R25, 60 R226). -/

namespace Sys2Proof.Machine

/-! ### The micro-steps -/

/-- The micro-steps of a running command: each position with each branch it can take. -/
inductive MicroStep (s : State) : State → Prop
  | nop (hp : s.phase = .nop) : MicroStep s (finishElement s)
  | rewind (hp : s.phase = .rewind) : MicroStep s (finishElement (rewindInput s))
  | countClear (hp : s.phase = .countClear) : MicroStep s (goTo .countRead (countClear s))
  | countEnd (hp : s.phase = .countRead) (hr : unread s = []) : MicroStep s (finishElement s)
  | countFull {b : Byte} {rest : List Byte} (hp : s.phase = .countRead) (hr : unread s = b :: rest)
      (ht : s.total = 0xFFFFFFFF) : MicroStep s (abort .inputTooLong (b.setWidth 32) (consume s))
  | countByte {b : Byte} {rest : List Byte} (hp : s.phase = .countRead) (hr : unread s = b :: rest) :
      MicroStep s (counted b (consume s))
  | buildInit (hp : s.phase = .buildInit) : MicroStep s (goTo .buildMerge (buildInit s))
  | buildEnd (hp : s.phase = .buildMerge) (hq : s.q.length = 1) : MicroStep s (buildFinish s)
  | merge (hp : s.phase = .buildMerge) (hq : s.q.length ≠ 1) (hm : canMerge (forestOf s) = true) :
      MicroStep s (withForest (mergeOnce (forestOf s)) s)
  | missingFlag (missing : Word) : MicroStep s (abort .sequence missing s)
  | deriveStart (hp : s.phase = .deriveCheck) (hv : s.treeValid = true) :
      MicroStep s (goTo (.deriveVisit [(s.root, [])]) s)
  | deriveEnd (hp : s.phase = .deriveVisit []) : MicroStep s (deriveFinish s)
  | deriveLeaf {n m : NodeIdx} {c path : List Bool} {rest rest' : List (NodeIdx × List Bool)}
      (hp : s.phase = .deriveVisit ((n, c) :: rest))
      (hd : descend s.nodes (255 - c.length) n c rest = some (m, path, rest')) :
      MicroStep s (goTo (.deriveVisit rest') { s with codes := setAt s.codes (symbolOf m) (codeOfPath path) })
  | headerStart (hp : s.phase = .headerCheck) (hv : s.codesValid = true) : MicroStep s (goTo (.headerByte 0) s)
  | headerNext {n : Nat} (hp : s.phase = .headerByte n) (hn : n + 1 < 1024) :
      MicroStep s (goTo (.headerByte (n + 1)) (outWrite (headerByteAt s.freq n) s))
  | headerEnd {n : Nat} (hp : s.phase = .headerByte n) :
      MicroStep s (goTo .headerSum (outWrite (headerByteAt s.freq n) s))
  | headerSum (hp : s.phase = .headerSum) : MicroStep s (goTo .headerLast (headerSum s))
  | headerLast (hp : s.phase = .headerLast) : MicroStep s (headerLast s)
  | packStart (hp : s.phase = .packCheck) (hv : s.codesValid = true) :
      MicroStep s (goTo .packRead { s with acc := [] })
  | packEnd (hp : s.phase = .packRead) (hacc : s.acc = []) : MicroStep s (finishElement s)
  | packPartial (hp : s.phase = .packRead) (hacc : s.acc ≠ []) : MicroStep s (goTo .packFlush s)
  | packByte {b : Byte} {rest : List Byte} (hp : s.phase = .packRead) (hr : unread s = b :: rest) :
      MicroStep s (packNext (packByte b (consume s)))
  | packEmit (hp : s.phase = .packEmit) : MicroStep s (packNext (emitGroup s))
  | packFlush (hp : s.phase = .packFlush) : MicroStep s (packFlush s)
  | headerTruncated {n : Nat} {v : Word} (hp : s.phase = .readCounter n v) :
      MicroStep s (abort .headerTruncated (BitVec.ofNat 32 n) (clearAtFirst n s))
  | counterNext {n : Nat} {v v' u : Word} {b : Byte} {rest : List Byte} (hp : s.phase = .readCounter n v)
      (hr : unread s = b :: rest) (hn : n + 1 < 1024) :
      MicroStep s (goTo (.readCounter (n + 1) u) (storeCounter n v' (consume (clearAtFirst n s))))
  | counterEnd {n : Nat} {v v' : Word} {b : Byte} {rest : List Byte} (hp : s.phase = .readCounter n v)
      (hr : unread s = b :: rest) : MicroStep s (goTo .readLast (storeCounter n v' (consume (clearAtFirst n s))))
  | lastBitsAbsent (hp : s.phase = .readLast) : MicroStep s (abort .lastBitsAbsent 1024 s)
  | lastBitsRange {b : Byte} {rest : List Byte} (hp : s.phase = .readLast) (hr : unread s = b :: rest) :
      MicroStep s (abort .lastBitsRange (b.setWidth 32) (consume s))
  | lastBits {b : Byte} {rest : List Byte} (hp : s.phase = .readLast) (hr : unread s = b :: rest) :
      MicroStep s (finishElement { consume s with lastBits := b.setWidth 3 })
  | walkStart (hp : s.phase = .walkCheck) (hv : s.treeValid = true) : MicroStep s (goTo .walkClear s)
  | walkClear (hp : s.phase = .walkClear) : MicroStep s (goTo .walkRead (walkClear s))
  | walkEmpty (hp : s.phase = .walkRead) (hv : s.pendingValid = false) : MicroStep s (walkFinish s)
  | walkEnd (hp : s.phase = .walkRead) (hv : s.pendingValid = true) :
      MicroStep s (goTo (.walkBits (finalBits s.lastBits) none) s)
  | walkFirst {b : Byte} {rest : List Byte} (hp : s.phase = .walkRead) (hr : unread s = b :: rest)
      (hv : s.pendingValid = false) : MicroStep s (goTo .walkRead (holdByte b (consume s)))
  | walkNext {b : Byte} {rest : List Byte} (hp : s.phase = .walkRead) (hr : unread s = b :: rest)
      (hv : s.pendingValid = true) : MicroStep s (goTo (.walkBits 8 (some b)) (consume s))
  | walkOffTree {left : Nat} {held : Option Byte} (hp : s.phase = .walkBits left held)
      (hl : s.nodes[s.walk].leaf = true) :
      MicroStep s (abort .walkOffTree (BitVec.ofNat 32 s.walk.val) (releaseWalk s))
  | walkBit {k : Nat} {held : Option Byte} (hp : s.phase = .walkBits (k + 2) held)
      (hl : s.nodes[s.walk].leaf = false) :
      MicroStep s (goTo (.walkBits (k + 1) held) (walkOn (s.pending.getLsbD (k + 1)) s))
  | walkLastBit {held : Option Byte} (hp : s.phase = .walkBits 1 held) (hl : s.nodes[s.walk].leaf = false) :
      MicroStep s (walkByteDone held (walkOn (s.pending.getLsbD 0) s))
  | walkNoBit {held : Option Byte} (hp : s.phase = .walkBits 0 held) : MicroStep s (walkByteDone held s)
  | verifyStart (hp : s.phase = .verifyCheck) (hv : s.decDone = true) : MicroStep s (goTo (.verifyAt 0) s)
  | verifyNext {sym : Byte} (hp : s.phase = .verifyAt sym) : MicroStep s (goTo (.verifyAt (sym + 1)) s)
  | verifyEnd {sym : Byte} (hp : s.phase = .verifyAt sym) : MicroStep s (finishElement s)
  | mismatch {sym : Byte} (hp : s.phase = .verifyAt sym) : MicroStep s (mismatch sym s)

theorem require_eq_next {flag : Bool} {missing : Word} {f : State → State} {s t : State}
    (h : require flag missing (fun u => .next (f u)) s = .next t) :
    (flag = true ∧ t = f s) ∨ t = abort .sequence missing s := by
  cases flag with
  | true => cases h; exact .inl ⟨rfl, rfl⟩
  | false => cases h; exact .inr rfl

/-- A prerequisite check is a micro-step: the flag is missing, or it is passed. -/
theorem MicroStep.of_require {flag : Bool} {missing : Word} {f : State → State} {s t : State}
    (h : require flag missing (fun u => .next (f u)) s = .next t) (pass : flag = true → MicroStep s (f s)) :
    MicroStep s t := by
  rcases require_eq_next h with ⟨hv, rfl⟩ | rfl
  · exact pass hv
  · exact .missingFlag missing

theorem microStep_countRead {s : State} (hp : s.phase = .countRead) : MicroStep s (stepCountRead s) := by
  cases hr : unread s with
  | nil =>
    rw [stepCountRead_eos hr]
    exact .countEnd hp hr
  | cons b rest =>
    rw [stepCountRead_cons hr]
    by_cases ht : s.total = 0xFFFFFFFF
    · rw [countByte_full (s := consume s) ht]
      exact .countFull hp hr ht
    · rw [countByte_counted (s := consume s) ht]
      exact .countByte hp hr

theorem microStep_buildMerge {s t : State} (hp : s.phase = .buildMerge) (h : stepBuildMerge s = .next t) :
    MicroStep s t := by
  unfold stepBuildMerge at h
  split at h
  next hq => cases h; exact .buildEnd hp hq
  next hq =>
    split at h
    next hm => cases h; exact .merge hp hq hm
    next => cases h

theorem microStep_deriveVisit {s t : State} {stack : List (NodeIdx × List Bool)} (hp : s.phase = .deriveVisit stack)
    (h : deriveVisit stack s = .next t) : MicroStep s t := by
  match stack with
  | [] =>
    cases h
    exact .deriveEnd hp
  | (n, c) :: rest =>
    simp only [deriveVisit] at h
    split at h
    next => cases h
    next m path rest' hd =>
      cases h
      exact .deriveLeaf hp hd

theorem microStep_headerByte {s : State} {n : Nat} (hp : s.phase = .headerByte n) :
    MicroStep s (stepHeaderByte n s) := by
  unfold stepHeaderByte
  split
  next hn => exact .headerNext hp hn
  next => exact .headerEnd hp

theorem microStep_packRead {s : State} (hp : s.phase = .packRead) : MicroStep s (stepPackRead s) := by
  cases hr : unread s with
  | nil =>
    by_cases hacc : s.acc = []
    · rw [stepPackRead_done hr hacc]
      exact .packEnd hp hacc
    · rw [stepPackRead_partial hr hacc]
      exact .packPartial hp hacc
  | cons b rest =>
    rw [stepPackRead_cons hr]
    exact .packByte hp hr

theorem microStep_readCounter {s : State} {n : Nat} {v : Word} (hp : s.phase = .readCounter n v) :
    MicroStep s (stepReadCounter n v s) := by
  cases hr : unread s with
  | nil =>
    rw [stepReadCounter_eos hr]
    exact .headerTruncated hp
  | cons b rest =>
    rw [stepReadCounter_cons hr]
    split
    next hn => exact .counterNext hp hr hn
    next => exact .counterEnd hp hr

theorem microStep_readLast {s : State} (hp : s.phase = .readLast) : MicroStep s (stepReadLast s) := by
  unfold stepReadLast
  cases hr : unread s with
  | nil =>
    rw [lastBits_absent hr]
    exact .lastBitsAbsent hp
  | cons b rest =>
    by_cases hb : b.toNat ≤ 7
    · rw [lastBits_read hr hb]
      exact .lastBits hp hr
    · rw [lastBits_outOfRange hr (Nat.lt_of_not_le hb)]
      exact .lastBitsRange hp hr

theorem microStep_walkRead {s : State} (hp : s.phase = .walkRead) : MicroStep s (stepWalkRead s) := by
  cases hr : unread s with
  | nil =>
    rw [stepWalkRead_eos hr]
    split
    next hv => exact .walkEnd hp hv
    next hv => exact .walkEmpty hp (eq_false_of_ne_true hv)
  | cons b rest =>
    rw [stepWalkRead_cons hr]
    split
    next hv => exact .walkNext hp hr hv
    next hv => exact .walkFirst hp hr (eq_false_of_ne_true hv)

theorem microStep_walkBits {s : State} {left : Nat} {held : Option Byte} (hp : s.phase = .walkBits left held)
    (hb : s.busy = true) : MicroStep s (stepWalkBits left held s) := by
  match left with
  | 0 => exact .walkNoBit hp
  | k + 1 =>
    cases hl : s.nodes[s.walk].leaf with
    | true =>
      rw [stepWalkBits_offTree hl]
      exact .walkOffTree hp hl
    | false =>
      cases k with
      | zero =>
        rw [stepWalkBits_last hl hb]
        exact .walkLastBit hp hl
      | succ k =>
        rw [stepWalkBits_more hl hb]
        exact .walkBit hp hl

theorem microStep_verifyAt {s : State} {sym : Byte} (hp : s.phase = .verifyAt sym) :
    MicroStep s (stepVerifyAt sym s) := by
  unfold stepVerifyAt
  split
  · split
    · exact .verifyEnd hp
    · exact .verifyNext hp
  · exact .mismatch hp

/-- Every micro-step of a running command is one of the relation. -/
theorem runningStep_cases {s t : State} (hb : s.busy = true) (h : runningStep s = .next t) : MicroStep s t := by
  cases hp : s.phase <;> simp only [runningStep, hp] at h
  case idle => cases h
  case nop => cases h; exact .nop hp
  case rewind => cases h; exact .rewind hp
  case countClear => cases h; exact .countClear hp
  case countRead => cases h; exact microStep_countRead hp
  case buildInit => cases h; exact .buildInit hp
  case buildMerge => exact microStep_buildMerge hp h
  case deriveCheck => exact .of_require h (.deriveStart hp)
  case deriveVisit stack => exact microStep_deriveVisit hp h
  case headerCheck => exact .of_require h (.headerStart hp)
  case headerByte n => cases h; exact microStep_headerByte hp
  case headerSum => cases h; exact .headerSum hp
  case headerLast => cases h; exact .headerLast hp
  case packCheck => exact .of_require h (.packStart hp)
  case packRead => cases h; exact microStep_packRead hp
  case packEmit => cases h; exact .packEmit hp
  case packFlush => cases h; exact .packFlush hp
  case readCounter n v => cases h; exact microStep_readCounter hp
  case readLast => cases h; exact microStep_readLast hp
  case walkCheck => exact .of_require h (.walkStart hp)
  case walkClear => cases h; exact .walkClear hp
  case walkRead => cases h; exact microStep_walkRead hp
  case walkBits left held => cases h; exact microStep_walkBits hp hb
  case verifyCheck => exact .of_require h (.verifyStart hp)
  case verifyAt sym => cases h; exact microStep_verifyAt hp

/-- The sequencer's turn: nothing while idle, a micro-step of the relation while busy. -/
theorem microStep_cases {s t : State} (h : microStep s = .next t) :
    (s.busy = false ∧ t = s) ∨ (s.busy = true ∧ MicroStep s t) := by
  cases hb : s.busy with
  | false =>
    rw [microStep_idle hb] at h
    cases h
    exact .inl ⟨rfl, rfl⟩
  | true =>
    rw [microStep_busy hb] at h
    exact .inr ⟨rfl, runningStep_cases hb h⟩

/-! ### What every micro-step has in common -/

/-- The state `t` has emitted some bytes more than `s` and counted them (20 R74). -/
def Emits (s t : State) : Prop :=
  ∃ bytes, t.sink = s.sink ++ bytes ∧ t.outCount = s.outCount + BitVec.ofNat 32 bytes.length

theorem Emits.of_same {s t : State} (hs : t.sink = s.sink) (ho : t.outCount = s.outCount) : Emits s t :=
  ⟨[], by rw [hs, List.append_nil], by rw [ho]; exact (BitVec.add_zero _).symm⟩

theorem Emits.trans {s t u : State} (hst : Emits s t) (htu : Emits t u) : Emits s u := by
  obtain ⟨bytes, hs, ho⟩ := hst
  obtain ⟨bytes', hs', ho'⟩ := htu
  refine ⟨bytes ++ bytes', by rw [hs', hs, List.append_assoc], ?_⟩
  rw [ho', ho, List.length_append, BitVec.ofNat_add, BitVec.add_assoc]

/-- Inside an element: the control fields stay, and SINK grows with OUT_COUNT. -/
structure Within (s u : State) : Prop where
  control : control u = control s
  emits : Emits s u

theorem Within.quiet {s u : State} (hc : Machine.control u = Machine.control s) (hs : u.sink = s.sink)
    (ho : u.outCount = s.outCount) : Within s u := ⟨hc, .of_same hs ho⟩

theorem Within.of_outWrite {s u : State} {b : Byte} (hc : Machine.control u = Machine.control s)
    (hs : u.sink = s.sink ++ [b]) (ho : u.outCount = s.outCount + 1) : Within s u := ⟨hc, [b], hs, ho⟩

/-- The three ways a micro-step can end. -/
inductive MicroOutcome (s : State) : State → Prop
  | goesOn {t : State} (h : Within s t) (hp : phaseElement t.phase = phaseElement s.phase) : MicroOutcome s t
  | finishes {u : State} (h : Within s u) : MicroOutcome s (finishElement u)
  | raises {u : State} {cause : Cause} (info : Word) (hc : cause ≠ .none) (h : Within s u) :
      MicroOutcome s (abort cause info u)

theorem MicroOutcome.at_position {s u : State} {p q : Phase} (hp : s.phase = p)
    (hq : phaseElement q = phaseElement p) (h : Within s u) : MicroOutcome s (goTo q u) :=
  .goesOn ⟨h.control, h.emits⟩ (by rw [hp]; exact hq)

theorem within_walkOn (bit : Bool) (s : State) : Within s (walkOn bit s) := by
  rcases walkOn_cases bit s with ⟨-, h⟩ | ⟨-, h⟩ <;> rw [h]
  · exact .of_outWrite rfl rfl rfl
  · exact .quiet rfl rfl rfl

theorem microOutcome_walkByteDone {s u : State} {k : Nat} {held : Option Byte} (hp : s.phase = .walkBits k held)
    (h : Within s u) : MicroOutcome s (walkByteDone held u) := by
  cases held with
  | some b => exact .at_position hp rfl ⟨h.control, h.emits⟩
  | none => exact .finishes ⟨h.control, h.emits⟩

theorem microOutcome_packNext {s u : State} {p : Phase} (hp : s.phase = p)
    (hq : phaseElement p = some .encodeBody) (h : Within s u) : MicroOutcome s (packNext u) := by
  unfold packNext
  refine .at_position hp ?_ h
  split <;> exact hq.symm

theorem within_headerSum (s : State) : Within s (headerSum s) :=
  .quiet (control_headerSum s) (by simp only [headerSum]) (by simp only [headerSum])

theorem within_storeCounter (n : Nat) (v : Word) (s : State) :
    Within s (storeCounter n v (consume (clearAtFirst n s))) := by
  refine .quiet ?_ ?_ ?_
  · rw [control_storeCounter, control_consume, control_clearAtFirst]
  · unfold storeCounter clearAtFirst
    split <;> split <;> rfl
  · unfold storeCounter clearAtFirst
    split <;> split <;> rfl

theorem MicroStep.outcome {s t : State} (h : MicroStep s t) : MicroOutcome s t := by
  cases h with
  | nop | rewind | countEnd | buildEnd | deriveEnd | packEnd | lastBits | walkEmpty | verifyEnd =>
    exact .finishes (.quiet rfl rfl rfl)
  | headerLast | packFlush => exact .finishes (.of_outWrite rfl rfl rfl)
  | countFull | missingFlag | lastBitsAbsent | lastBitsRange | walkOffTree | mismatch =>
    exact .raises _ (by decide) (.quiet rfl rfl rfl)
  | headerTruncated =>
    refine .raises _ (by decide) (.quiet (control_clearAtFirst _ s) ?_ ?_) <;> unfold clearAtFirst <;> split <;> rfl
  | countByte | merge => exact .goesOn (.quiet rfl rfl rfl) rfl
  | countClear hp | buildInit hp | deriveStart hp | deriveLeaf hp | headerStart hp | packStart hp | packPartial hp
  | walkStart hp | walkClear hp | walkEnd hp | walkFirst hp | walkNext hp | verifyStart hp | verifyNext hp =>
    exact .at_position hp rfl (.quiet rfl rfl rfl)
  | headerNext hp | headerEnd hp => exact .at_position hp rfl (.of_outWrite rfl rfl rfl)
  | headerSum hp => exact .at_position hp rfl (within_headerSum s)
  | packByte hp => exact microOutcome_packNext hp rfl (.quiet rfl rfl rfl)
  | packEmit hp => exact microOutcome_packNext hp rfl (.of_outWrite rfl rfl rfl)
  | counterNext hp | counterEnd hp => exact .at_position hp rfl (within_storeCounter _ _ s)
  | walkBit hp => exact .at_position hp rfl (within_walkOn _ s)
  | walkLastBit hp => exact microOutcome_walkByteDone hp (within_walkOn _ s)
  | walkNoBit hp => exact microOutcome_walkByteDone hp (.quiet rfl rfl rfl)

/-! ### How a command ends -/

/-- While a command runs nothing is reported; where none runs the last one ended with exactly one of DONE and ERR, and
with DONE exactly where no cause is recorded (10_state.md R25, 60 R226). -/
def RunningOrEnded (s : State) : Prop :=
  if s.busy then s.done = false ∧ s.err = false ∧ s.errCause = .none
  else s.issuedOp = 0 ∧ s.curOp = 0 ∧ s.mstep = 0 ∧ s.phase = .idle ∧
    (s.done ^^ s.err) = true ∧ (s.done = true ↔ s.errCause = .none)

theorem RunningOrEnded.while_busy {s : State} (h : RunningOrEnded s) (hb : s.busy = true) :
    s.done = false ∧ s.err = false ∧ s.errCause = .none := by
  rwa [RunningOrEnded, if_pos hb] at h

theorem RunningOrEnded.of_running {s : State} (hb : s.busy = true)
    (h : s.done = false ∧ s.err = false ∧ s.errCause = .none) : RunningOrEnded s := by
  rwa [RunningOrEnded, if_pos hb]

/-- The reports of a running command, read off the control fields. -/
theorem reports_of_control {s u : State} (h : control u = control s) :
    u.done = s.done ∧ u.err = s.err ∧ u.errCause = s.errCause :=
  ⟨congrArg Control.done h, congrArg Control.err h, congrArg Control.errCause h⟩

theorem runningOrEnded_outcome {s t : State} (hb : s.busy = true) (hs : RunningOrEnded s) (h : MicroOutcome s t) :
    RunningOrEnded t := by
  have hsame {u : State} (hu : Within s u) :
      u.busy = true ∧ u.done = false ∧ u.err = false ∧ u.errCause = .none := by
    obtain ⟨hd, he, hc⟩ := reports_of_control hu.control
    rw [hd, he, hc]
    exact ⟨busy_of_control hu.control hb, hs.while_busy hb⟩
  cases h with
  | goesOn hu => exact .of_running (hsame hu).1 (hsame hu).2
  | @finishes u hu =>
    obtain ⟨hbu, hdone, herr, hcause⟩ := hsame hu
    rcases finishElement_cases u with ⟨e, rest, -, hfin⟩ | ⟨-, hfin⟩ <;> rw [hfin]
    · exact .of_running hbu ⟨hdone, herr, hcause⟩
    · simp [RunningOrEnded, herr, hcause]
  | @raises u cause info hne hu =>
    obtain ⟨-, hdone, -, -⟩ := hsame hu
    simp [RunningOrEnded, hdone, hne]

/-- Settles O39: acceptance reports nothing, each micro-step of the run keeps what R25 says of it, and the run ends. -/
theorem commandEndsDoneOrErr : Obligations.CommandEndsDoneOrErr := by
  intro s t i hb hi h
  have keeps (u v : State) (hu : RunningOrEnded u) (hstep : microStep u = .next v) : RunningOrEnded v := by
    rcases microStep_cases hstep with ⟨-, rfl⟩ | ⟨hbu, hm⟩
    · exact hu
    · exact runningOrEnded_outcome hbu hu hm.outcome
  have hend : RunningOrEnded t := exec_induction keeps hi hb (.of_running rfl ⟨rfl, rfl, rfl⟩) h
  have hbt : t.busy = false := (exec_reached hi hb).2 t h
  rw [RunningOrEnded, if_neg (ne_true_of_eq_false hbt)] at hend
  exact ⟨hbt, hend⟩

/-! ### What a command emits -/

theorem emits_outcome {s t : State} (h : MicroOutcome s t) : Emits s t := by
  cases h with
  | goesOn hu => exact hu.emits
  | finishes hu => exact hu.emits.trans (.of_same (finishElement_sink _) (finishElement_outCount _))
  | raises _ _ hu => exact hu.emits.trans (.of_same rfl rfl)

/-- Settles O40: acceptance sets OUT_COUNT to 0, and each micro-step of the run counts what it emits. -/
theorem outCountCountsEmitted : Obligations.OutCountCountsEmitted := by
  intro s t i hb hi h
  have keeps (u v : State) (hu : Emits (accept i s) u) (hstep : microStep u = .next v) : Emits (accept i s) v := by
    rcases microStep_cases hstep with ⟨-, rfl⟩ | ⟨-, hm⟩
    · exact hu
    · exact hu.trans (emits_outcome hm.outcome)
  obtain ⟨bytes, hs, ho⟩ := exec_induction keeps hi hb (.of_same rfl rfl) h
  exact ⟨bytes, hs, ho.trans (BitVec.zero_add _)⟩

end Sys2Proof.Machine
end

section
/-! SUPPORT. The host's register window (10_state.md R37 to R61): what a read of each register returns and what a write
stores. -/

namespace Sys2Proof.Machine

/-! ### Reads -/

/-- A register whose read is defined reads as its word. -/
theorem readsAs_of_readReg {off : Nat} {r : Reg} {w : Word} {s : State} (h : supportedOffset off = true)
    (hr : regAt off = some r) (hread : readReg r s = (w, s)) : ReadsAs off w s := by
  rw [ReadsAs, hostRead_reg h hr, hread]

theorem guarded_of_true {known : Bool} (h : known = true) (w : Word) (s : State) : guarded known w s = (w, s) := by
  rw [h, guarded_known]

theorem guarded_state (known : Bool) (w : Word) (s : State) : ∃ n, (guarded known w s).2 = { s with draws := n } := by
  cases known with
  | true => exact ⟨s.draws, rfl⟩
  | false => exact ⟨s.draws + 1, rfl⟩

theorem readNode_state (view : Node → Word) (s : State) : ∃ n, (readNode view s).2 = { s with draws := n } := by
  unfold readNode
  split
  · exact ⟨s.draws + 1, rfl⟩
  · split
    · exact guarded_state _ _ s
    · exact ⟨s.draws, rfl⟩

/-- A register read changes the count of draws alone (R38; log 6). -/
theorem readReg_state (r : Reg) (s : State) : ∃ n, (readReg r s).2 = { s with draws := n } := by
  cases r with
  | freqData | vfreqData | vfreqFlags | codeLen | codeVal | root => exact guarded_state _ _ s
  | nodeWeight | nodeLink => exact readNode_state _ s
  | _ => exact ⟨s.draws, rfl⟩

theorem hostRead_reserved {off : Nat} (h : supportedOffset off = true) (hr : regAt off = none) (s : State) :
    hostRead off s = .next { s with reads := s.reads ++ [(off, 0)] } := by
  simp [hostRead, h, hr]

/-- What any host read does: the host has read something more, and values may have been drawn. -/
theorem hostRead_state {off : Nat} {s t : State} (h : hostRead off s = .next t) :
    ∃ reads draws, t = { s with reads := reads, draws := draws } := by
  cases hsup : supportedOffset off with
  | false => simp [hostRead, hsup] at h
  | true =>
    cases hr : regAt off with
    | none =>
      rw [hostRead_reserved hsup hr] at h
      cases h
      exact ⟨_, s.draws, rfl⟩
    | some r =>
      rw [hostRead_reg hsup hr] at h
      cases h
      obtain ⟨n, hn⟩ := readReg_state r s
      rw [hn]
      exact ⟨_, n, rfl⟩

/-- Settles O47: a host read adds to what the host has read, and draws at most. -/
theorem readsHaveNoSideEffect : Obligations.ReadsHaveNoSideEffect := by
  intro s t off h
  obtain ⟨reads, draws, rfl⟩ := hostRead_state h
  rfl

/-! ### STATUS and ERR_CAUSE (R42, R44) -/

theorem statusWord_getLsbD (s : State) (i : Nat) :
    (statusWord s).getLsbD i =
      (s.issuedOp ++ s.curOp ++ (0 : BitVec 7) ++ BitVec.ofBool (irq s) ++ BitVec.ofBool s.trailPartial
        ++ BitVec.ofBool s.decDone ++ BitVec.ofBool s.codesValid ++ BitVec.ofBool s.treeValid
        ++ BitVec.ofBool s.overrun ++ BitVec.ofBool s.err ++ BitVec.ofBool s.done ++ BitVec.ofBool s.busy).getLsbD i :=
  rfl

theorem statusWord_bits (s : State) :
    (statusWord s).getLsbD 0 = s.busy ∧ (statusWord s).getLsbD 1 = s.done ∧ (statusWord s).getLsbD 2 = s.err ∧
    (statusWord s).getLsbD 3 = s.overrun ∧ (statusWord s).getLsbD 4 = s.treeValid ∧
    (statusWord s).getLsbD 5 = s.codesValid ∧ (statusWord s).getLsbD 6 = s.decDone ∧
    (statusWord s).getLsbD 7 = s.trailPartial ∧ (statusWord s).getLsbD 8 = (s.ie && (s.done || s.err)) := by
  simp only [statusWord_getLsbD, BitVec.getLsbD_append]
  simp [irq]

theorem statusWord_fields (s : State) :
    (statusWord s).extractLsb' 9 7 = 0 ∧ (statusWord s).extractLsb' 16 8 = s.curOp ∧
    (statusWord s).extractLsb' 24 8 = s.issuedOp := by
  refine ⟨?_, ?_, ?_⟩
  all_goals
    apply BitVec.eq_of_getLsbD_eq
    intro i hi
    simp only [BitVec.getLsbD_extractLsb', statusWord_getLsbD, BitVec.getLsbD_append]
    simp (disch := omega) only [if_neg, if_pos, hi, decide_true, Bool.true_and]
  · simp
  · congr 1
    omega
  · congr 1
    omega

theorem errCauseWord_fields (s : State) :
    (errCauseWord s).extractLsb' 0 8 = causeCode s.errCause ∧ (errCauseWord s).extractLsb' 8 8 = s.errOp ∧
    (errCauseWord s).extractLsb' 16 16 = 0 := by
  have hbits (i : Nat) :
      (errCauseWord s).getLsbD i = ((0 : BitVec 16) ++ s.errOp ++ causeCode s.errCause).getLsbD i := rfl
  refine ⟨?_, ?_, ?_⟩
  all_goals
    apply BitVec.eq_of_getLsbD_eq
    intro i hi
    simp only [BitVec.getLsbD_extractLsb', hbits, BitVec.getLsbD_append]
    simp (disch := omega) only [if_neg, if_pos, hi, decide_true, Bool.true_and]
  · rw [Nat.zero_add]
  · rw [Nat.add_sub_cancel_left]
  · simp

/-- Settles O42: each read is its register's word, and the words' fields are where R42 and R44 put them. -/
theorem statusErrorAndCounterReads : Obligations.StatusErrorAndCounterReads := by
  intro s
  obtain ⟨b0, b1, b2, b3, b4, b5, b6, b7, b8⟩ := statusWord_bits s
  obtain ⟨f0, f1, f2⟩ := statusWord_fields s
  obtain ⟨g0, g1, g2⟩ := errCauseWord_fields s
  have hpos : BitVec.ofNat 32 (s.inPos % 2 ^ 32) = BitVec.ofNat 32 s.inPos :=
    BitVec.eq_of_toNat_eq (by rw [BitVec.toNat_ofNat, BitVec.toNat_ofNat, Nat.mod_mod])
  rw [hpos]
  exact ⟨rfl, rfl, rfl, rfl, rfl, rfl, b0, b1, b2, b3, b4, b5, b6, b7, b8, f0, f1, f2, g0, g1, g2, rfl⟩

/-! ### The read-write registers (R38, R40, R46, R50, R55, R58) -/

/-- The low bits of a word, as a register that keeps them reads them. -/
theorem setWidth_setWidth_eq_and (v : Word) {k : Nat} (hk : k ≤ 32) :
    (v.setWidth k).setWidth 32 = v &&& BitVec.ofNat 32 (2 ^ k - 1) := by
  apply BitVec.eq_of_toNat_eq
  have hle : 2 ^ k ≤ 2 ^ 32 := Nat.pow_le_pow_right (by omega) hk
  have hpos : 0 < 2 ^ k := Nat.two_pow_pos k
  have hlt : v.toNat % 2 ^ k < 2 ^ 32 := Nat.lt_of_lt_of_le (Nat.mod_lt _ hpos) hle
  have hmask : (2 ^ k - 1) % 2 ^ 32 = 2 ^ k - 1 := Nat.mod_eq_of_lt (by omega)
  rw [BitVec.toNat_and, BitVec.toNat_setWidth, BitVec.toNat_setWidth, BitVec.toNat_ofNat, Nat.mod_eq_of_lt hlt,
    hmask, Nat.and_two_pow_sub_one_eq_mod]

theorem ofBool_getLsbD_zero (v : Word) : BitVec.ofBool (v.getLsbD 0) = v.setWidth 1 := by
  ext i hi
  obtain rfl : i = 0 := by omega
  simp

theorem whileIdle_idle {s : State} (h : s.busy = false) (f : State → State) : whileIdle f s = f s :=
  if_neg (ne_true_of_eq_false h)

/-- A register that keeps the low `k` bits of what is written to it reads them back. -/
theorem write_then_read {off k : Nat} {r : Reg} {v : Word} {s u : State} (h : supportedOffset off = true)
    (hr : regAt off = some r) (hk : k ≤ 32) (hw : writeReg r v s = u)
    (hread : readReg r u = ((v.setWidth k).setWidth 32, u)) :
    hostWrite off v s = .next u ∧ ReadsAs off (v &&& BitVec.ofNat 32 (2 ^ k - 1)) u := by
  rw [hostWrite_reg h hr, hw, ← setWidth_setWidth_eq_and v hk]
  exact ⟨rfl, readsAs_of_readReg h hr hread⟩

theorem readReg_ctrl (s : State) : readReg .ctrl s = ((BitVec.ofBool s.ie).setWidth 32, s) := by
  have hctrl (b : Bool) : (0 : BitVec 31) ++ BitVec.ofBool b = (BitVec.ofBool b).setWidth 32 := by
    cases b <;> rfl
  rw [readReg, hctrl]
  rfl

/-- Settles O45: a read shows the field, and a write while idle stores its low bits there. -/
theorem readWriteRegistersKeepFields : Obligations.ReadWriteRegistersKeepFields := by
  intro s v
  refine ⟨⟨readsAs_of_readReg rfl rfl (readReg_ctrl s), rfl, rfl, rfl, rfl⟩, fun hb row hrow => ?_⟩
  simp only [List.mem_cons, List.not_mem_nil, or_false] at hrow
  rcases hrow with rfl | rfl | rfl | rfl | rfl <;> dsimp only
  · refine write_then_read (r := .ctrl) rfl rfl (by decide) (if_neg (ne_true_of_eq_false hb)) ?_
    rw [readReg_ctrl, ofBool_getLsbD_zero]
  · exact write_then_read (r := .lastBits) rfl rfl (by decide) (if_neg (ne_true_of_eq_false hb)) rfl
  · exact write_then_read (r := .freqIdx) rfl rfl (by decide) (if_neg (ne_true_of_eq_false hb)) rfl
  · exact write_then_read (r := .codeIdx) rfl rfl (by decide) (if_neg (ne_true_of_eq_false hb)) rfl
  · exact write_then_read (r := .nodeIdx) rfl rfl (by decide) (if_neg (ne_true_of_eq_false hb)) rfl

/-! ### The other writes -/

/-- Settles O44: the write stores one counter and clears the two flags, and FREQ_DATA reads back what it stored. -/
theorem freqDataWriteThenRead : Obligations.FreqDataWriteThenRead := by
  intro s v hb
  refine ⟨{ clearTreeValid s with freq := setAt s.freq s.freqIdx v }, ?_, rfl, fun sym => ?_, ?_⟩
  · rw [hostWrite_reg (r := .freqData) rfl rfl, writeReg, whileIdle_idle hb]
  · simp only [getAt_setAt, eq_comm]
  · refine readsAs_of_readReg (r := .freqData) rfl rfl ((guarded_of_true ?_ _ _).trans ?_)
    · rw [clearTreeValid_busy, hb]
      rfl
    · rw [getAt_setAt]
      exact congrArg (·, _) (if_pos rfl)

/-- Settles O43: each of the three flags stays where the written bit is 0. -/
theorem statusWriteOneToClear : Obligations.StatusWriteOneToClear := by
  intro s v
  have hclear (flag one : Bool) : (flag && !one) = if one then false else flag := by cases one <;> simp
  rw [hostWrite_reg (r := .status) rfl rfl, writeReg, clearStatus, hclear, hclear, hclear]

theorem regAt_reserved {off : Nat} (h : 0x54 ≤ off) : regAt off = none := by
  have hfind : (regMap.find? fun row => row.1 == off) = none := by
    rw [List.find?_eq_none]
    intro row hrow
    have hle : row.1 ≤ 0x50 := by
      revert row
      decide
    simp only [beq_iff_eq]
    omega
  rw [regAt, hfind]
  rfl

theorem supportedOffset_of_aligned {off : Nat} (h : off < 0x100) (h4 : off % 4 = 0) : supportedOffset off = true := by
  simp [supportedOffset, h4, h]

/-- Settles O46: a read-only register's write is no write, and no register stands at an offset from 0x54 on. -/
theorem readOnlyAndReservedOffsets : Obligations.ReadOnlyAndReservedOffsets := by
  intro s v
  refine ⟨fun off hoff => ?_, fun off hlow hhigh h4 => ?_, rfl, rfl⟩
  · simp only [List.mem_cons, List.not_mem_nil, or_false] at hoff
    rcases hoff with rfl | rfl | rfl | rfl | rfl | rfl | rfl | rfl | rfl | rfl | rfl | rfl | rfl <;> rfl
  · have hsup := supportedOffset_of_aligned hhigh h4
    have hreg := regAt_reserved hlow
    exact ⟨by simp [hostWrite, hsup, hreg], hostRead_reserved hsup hreg s⟩

/-! ### The windows of the tables (R51 to R61) -/

theorem readNode_511 {s : State} (hb : s.busy = false) (hn : s.nodeIdx = 511) (view : Node → Word) :
    readNode view s = (0, s) := by
  rw [readNode, if_neg (ne_true_of_eq_false hb), dif_neg (by rw [hn]; decide)]
  rfl

theorem readNode_known {s : State} (hb : s.busy = false) (hv : s.treeValid = true) {n : NodeIdx}
    (hn : s.nodeIdx = BitVec.ofNat 9 n.val) (view : Node → Word) : readNode view s = (view s.nodes[n], s) := by
  have hlt := n.isLt
  have hidx : s.nodeIdx.toNat = n.val := by
    rw [hn, BitVec.toNat_ofNat]
    omega
  rw [readNode, if_neg (ne_true_of_eq_false hb), dif_pos (by omega), guarded_of_true hv]
  simp only [hidx]
  rfl

theorem linkWord_eq (n : Node) :
    linkWord n = if n.leaf then 0x80000000 else BitVec.ofNat 32 (n.right.val * 2 ^ 16 + n.left.val) := by
  have hr := n.right.isLt
  have hl := n.left.isLt
  unfold linkWord
  split
  · rfl
  · apply BitVec.eq_of_toNat_eq
    have hor := Nat.shiftLeft_add_eq_or_of_lt (i := 16) (b := n.left.val) (by omega) n.right.val
    rw [BitVec.toNat_or, BitVec.toNat_shiftLeft, BitVec.toNat_ofNat, BitVec.toNat_ofNat, BitVec.toNat_ofNat,
      Nat.mod_eq_of_lt (by omega : n.right.val < 2 ^ 32), Nat.mod_eq_of_lt (by omega : n.left.val < 2 ^ 32),
      Nat.mod_eq_of_lt (by omega : n.right.val * 2 ^ 16 + n.left.val < 2 ^ 32),
      Nat.mod_eq_of_lt (by rw [Nat.shiftLeft_eq]; omega), ← hor, Nat.shiftLeft_eq]

/-- Settles O48: index 511 is no node, and any other index below 511 shows its node. -/
theorem nodeWindowShowsNode : Obligations.NodeWindowShowsNode := by
  intro s hb
  refine ⟨fun hn => ⟨?_, ?_⟩, fun hv => ⟨?_, fun n hn => ⟨?_, ?_⟩⟩⟩
  · exact readsAs_of_readReg (r := .nodeWeight) rfl rfl (readNode_511 hb hn _)
  · exact readsAs_of_readReg (r := .nodeLink) rfl rfl (readNode_511 hb hn _)
  · exact readsAs_of_readReg (r := .root) rfl rfl (guarded_of_true (by simp [hb, hv]) _ s)
  · exact readsAs_of_readReg (r := .nodeWeight) rfl rfl (readNode_known hb hv hn _)
  · rw [← linkWord_eq]
    exact readsAs_of_readReg (r := .nodeLink) rfl rfl (readNode_known hb hv hn _)

theorem codeWord_eq (idx : BitVec 11) : codeWord idx = idx.toNat / 256 := by
  have h := idx.isLt
  rw [codeWord, BitVec.extractLsb'_toNat, Nat.shiftRight_eq_div_pow]
  omega

theorem extractLsb'_eq_ofNat (x : BitVec 256) (start : Nat) :
    x.extractLsb' start 32 = BitVec.ofNat 32 (x.toNat / 2 ^ start) := by
  apply BitVec.eq_of_toNat_eq
  rw [BitVec.extractLsb'_toNat, BitVec.toNat_ofNat, Nat.shiftRight_eq_div_pow]

/-- Settles O49: while idle the guards of the windows are known, and each window reads as its entry. -/
theorem counterAndCodeWindowsShowTables : Obligations.CounterAndCodeWindowsShowTables := by
  intro s hb
  have hidle : (!s.busy) = true := by rw [hb]; rfl
  refine ⟨⟨?_, ?_, ?_⟩, fun hv => ⟨?_, ?_⟩⟩
  · exact readsAs_of_readReg (r := .freqData) rfl rfl (guarded_of_true hidle _ s)
  · exact readsAs_of_readReg (r := .vfreqData) rfl rfl (guarded_of_true hidle _ s)
  · exact readsAs_of_readReg (r := .vfreqFlags) rfl rfl (guarded_of_true hidle _ s)
  · exact readsAs_of_readReg (r := .codeLen) rfl rfl (guarded_of_true (by rw [hb, hv]; rfl) _ s)
  · rw [← extractLsb'_eq_ofNat, ← codeWord_eq]
    exact readsAs_of_readReg (r := .codeVal) rfl rfl (guarded_of_true (by rw [hb, hv]; rfl) _ s)

/-! ### Command words (30_encoding.md R101, 10_state.md R41) -/

theorem decode_encode (i : Instr) : decode (encode i) = .ok i := by
  cases i <;> decide

theorem encode_low_byte (i : Instr) : (encode i).setWidth 8 = opcodeOf i := by
  cases i <;> decide

theorem writeCmd_accepts {i : Instr} {w : Word} {s : State} (hw : decode w = .ok i) (hi : i ≠ .reset)
    (hb : s.busy = false) : writeCmd w s = accept i s := by
  rw [writeCmd, hw]
  cases i with
  | reset => exact absurd rfl hi
  | _ => exact if_neg (ne_true_of_eq_false hb)

theorem errCauseWord_accept (i : Instr) (s : State) : errCauseWord (accept i s) = 0 := by
  rw [errCauseWord, accept_errOp, accept_errCause]
  rfl

/-- Settles O7: the write is the acceptance of the command, which sets just the fields R41 lists and the position. -/
theorem cmdWriteAccepts : Obligations.CmdWriteAccepts := by
  intro s i hb hi
  refine ⟨accept i s, ?_, rfl, rfl, rfl, errCauseWord_accept i s, rfl, rfl, (encode_low_byte i).symm, rfl, ?_, rfl⟩
  · rw [hostWrite_reg (r := .cmd) rfl rfl, writeReg, writeCmd_accepts (decode_encode i) hi hb]
  · cases i <;> rfl

/-- Settles O10: every command but RESET is issued, and issuing while busy is the dropped write. -/
theorem busyCommandIsDropped : Obligations.BusyCommandIsDropped := by
  intro s i hb hi
  rw [exec_eq_issue hi, issue_busy hb]
  rfl

theorem decode_of_decodeTableWord {w : Nat} {i : Instr} (hw : w < 2 ^ 32) (h : decodeTableWord 32 w = some i) :
    decode (BitVec.ofNat 32 w) = .ok i := by
  rw [decodeTableWord, Nat.mod_eq_of_lt hw, if_pos hw] at h
  split at h
  next j hj => cases h; exact hj
  next => cases h

/-- Settles O5: the next move is the placed word, and with it taken the script is the one before. -/
theorem placedWordRuns : Obligations.PlacedWordRuns := by
  intro s w i hw h
  have hdecode := decode_of_decodeTableWord hw h
  rw [step_move (m := .command (BitVec.ofNat 32 (w % 2 ^ 32))) (rest := s.script) rfl, Nat.mod_eq_of_lt hw, hostMove,
    runCommand, hdecode]
  rfl

end Sys2Proof.Machine
end

section
/-! SUPPORT. BUILD_TREE's forest (41_tree_builder.md R145, R146): its shape and its total weight hold after the leaves
are made, every merge keeps them, and with one node left in Q they give the tree. -/

namespace Sys2Proof.Machine

/-! ### The leaves -/

theorem leaves_ascending : leaves.Pairwise (· < ·) := by
  unfold leaves symbols
  rw [List.pairwise_map, List.pairwise_map]
  refine List.pairwise_lt_range.imp_of_mem fun {a b} ha hb hab => Fin.lt_def.2 ?_
  have ha := List.mem_range.1 ha
  have hb := List.mem_range.1 hb
  rw [leafOf_val, leafOf_val, BitVec.toNat_ofNat, BitVec.toNat_ofNat]
  omega

theorem leafOf_inj {a b : Byte} (h : leafOf a = leafOf b) : a = b :=
  BitVec.eq_of_toNat_eq (show (leafOf a).val = (leafOf b).val by rw [h])

theorem set_get (nodes : Vector Node 511) (m n : NodeIdx) (x : Node) :
    (nodes.set n x)[m] = if m = n then x else nodes[m] := by
  rw [Fin.getElem_fin, Vector.getElem_set]
  by_cases h : m = n
  · rw [if_pos (congrArg Fin.val h).symm, if_pos h]
  · rw [if_neg fun hv => h (Fin.ext hv.symm), if_neg h]
    rfl

theorem withLeaves_list (freq : Vector Word 256) (syms : List Byte) (nodes : Vector Node 511) (sym : Byte) :
    (syms.foldl (fun t s => t.set (leafOf s) (leafNode (getAt freq s))) nodes)[leafOf sym] =
      if sym ∈ syms then leafNode (getAt freq sym) else nodes[leafOf sym] := by
  induction syms generalizing nodes with
  | nil => rfl
  | cons s rest ih =>
    rw [List.foldl_cons, ih, set_get]
    by_cases hs : sym = s
    · subst hs
      simp
    · have hleaf : leafOf sym ≠ leafOf s := fun h => hs (leafOf_inj h)
      simp [hs, hleaf]

theorem withLeaves_leaf (freq : Vector Word 256) (nodes : Vector Node 511) (sym : Byte) :
    (withLeaves freq nodes)[leafOf sym] = leafNode (getAt freq sym) :=
  (withLeaves_list freq symbols nodes sym).trans (if_pos (mem_symbols sym))

/-- Where the leaves are made Q holds the 256 leaves and no node has a parent. -/
theorem forestShape_leaves {freq : Vector Word 256} {nodes : Vector Node 511}
    (h : ∀ sym, nodes[leafOf sym] = leafNode (getAt freq sym)) :
    ForestShape freq { nodes := nodes, q := leaves, nextNode := 256 } := by
  have hnext : (256 : BitVec 10).toNat = 256 := rfl
  have hnone (p m : NodeIdx) : ¬ ParentIn nodes (256 : BitVec 10).toNat p m := fun ⟨h1, h2, _⟩ => by omega
  refine ⟨Nat.le_of_eq hnext.symm, Nat.le_trans (Nat.le_of_eq hnext) (by omega), ?_, leaves_ascending,
    ⟨fun sym => ?_, fun n h1 h2 => ?_⟩, fun m p _ h => absurd h (hnone p m), fun m => ?_⟩
  · exact congrArg₂ (· + ·) leaves_length hnext
  · rw [h]
    exact ⟨rfl, rfl⟩
  · exact absurd h2 (Nat.not_lt.2 h1)
  · rw [mem_leaves]
    exact ⟨fun h => ⟨h, fun ⟨p, hp⟩ => hnone p m hp⟩, And.left⟩

/-! ### One merge -/

section
variable {freq : Vector Word 256} {f : Forest}

/-- The children of an internal node lie below it. -/
theorem BuiltUpTo.child_lt {nodes : Vector Node 511} {hi : Nat} {p m : NodeIdx} (h : BuiltUpTo freq nodes hi)
    (hp : ParentIn nodes hi p m) : m < p := by
  obtain ⟨h1, h2, hc⟩ := hp
  obtain ⟨-, hl, hr, -, -⟩ := h.2 p h1 h2
  rcases hc with rfl | rfl
  · exact hl
  · exact hr

/-- Each merge takes one node off Q and one free node (R145). -/
theorem ForestShape.counts (h : ForestShape freq f) : f.q.length + f.nextNode.toNat = 512 := by
  obtain ⟨-, -, hsum, -⟩ := h
  exact hsum

theorem ForestShape.mem_lt (h : ForestShape freq f) {m : NodeIdx} (hm : m ∈ f.q) : m.val < f.nextNode.toNat := by
  obtain ⟨-, -, -, -, -, -, hq⟩ := h
  exact ((hq m).1 hm).1

/-- What a merge does, with all that is known of the two nodes it pops. -/
theorem ForestShape.merge (h : ForestShape freq f) (h2 : 2 ≤ f.q.length) :
    ∃ (n a b : NodeIdx), n.val = f.nextNode.toNat ∧ a ≠ b ∧ a ∈ f.q ∧ b ∈ f.q ∧ a < n ∧ b < n ∧
      mergeOnce f = { nodes := f.nodes.set n (mergeNode f.nodes a b), q := (f.q.erase a).erase b ++ [n],
                      nextNode := f.nextNode + 1 } := by
  obtain ⟨-, -, hsum, hasc, -, -, hq⟩ := h
  have hn : f.nextNode.toNat < 511 := by omega
  obtain ⟨a, b, ha, hb, hmerge⟩ := mergeOnce_eq h2 hn
  have hnodup : f.q.Nodup := hasc.imp fun h => ne_of_lt h
  have haq := (popMin_some ha).1
  obtain ⟨hba, hbq⟩ := (hnodup.mem_erase_iff).1 (popMin_some hb).1
  exact ⟨⟨f.nextNode.toNat, hn⟩, a, b, rfl, hba.symm, haq, hbq, Fin.lt_def.2 ((hq a).1 haq).1,
    Fin.lt_def.2 ((hq b).1 hbq).1, hmerge⟩

end

/-- A new node over `a` and `b` adds itself as their parent and no other. -/
theorem parentIn_set {nodes : Vector Node 511} {n a b p m : NodeIdx} (hn : 256 ≤ n.val) :
    ParentIn (nodes.set n (mergeNode nodes a b)) (n.val + 1) p m ↔
      ParentIn nodes n.val p m ∨ (p = n ∧ (m = a ∨ m = b)) := by
  unfold ParentIn
  rw [set_get]
  by_cases hp : p = n
  · subst hp
    rw [if_pos rfl]
    constructor
    · rintro ⟨-, -, h⟩
      exact .inr ⟨rfl, h.imp Eq.symm Eq.symm⟩
    · rintro (⟨-, h, -⟩ | ⟨-, h⟩)
      · exact absurd h (Nat.lt_irrefl _)
      · exact ⟨hn, Nat.lt_succ_self _, h.imp Eq.symm Eq.symm⟩
  · rw [if_neg hp]
    have hne : p.val ≠ n.val := fun h => hp (Fin.ext h)
    constructor
    · rintro ⟨h1, h2, h⟩
      exact .inl ⟨h1, by omega, h⟩
    · rintro (⟨h1, h2, h⟩ | ⟨h, -⟩)
      · exact ⟨h1, by omega, h⟩
      · exact absurd h hp

/-- What BuiltUpTo says of one internal node `n` with contents `x`. -/
def InternalNode (nodes : Vector Node 511) (n : NodeIdx) (x : Node) : Prop :=
  x.leaf = false ∧ x.left < n ∧ x.right < n ∧ x.left ≠ x.right ∧
    x.weight = nodes[x.left].weight + nodes[x.right].weight

theorem builtUpTo_set {freq : Vector Word 256} {nodes : Vector Node 511} {n a b : NodeIdx} (hn : 256 ≤ n.val)
    (h : BuiltUpTo freq nodes n.val) (hab : a ≠ b) (ha : a < n) (hb : b < n) :
    BuiltUpTo freq (nodes.set n (mergeNode nodes a b)) (n.val + 1) := by
  obtain ⟨hleaf, hint⟩ := h
  have hold {m : NodeIdx} (hm : m < n) : (nodes.set n (mergeNode nodes a b))[m] = nodes[m] := by
    rw [set_get, if_neg (ne_of_lt hm)]
  refine ⟨fun sym => ?_, fun k hk hkn => ?_⟩
  · rw [hold (Fin.lt_def.2 (Nat.lt_of_lt_of_le sym.isLt hn))]
    exact hleaf sym
  · change InternalNode _ k _
    by_cases hk' : k = n
    · subst hk'
      rw [set_get, if_pos rfl]
      refine ⟨rfl, ha, hb, hab, ?_⟩
      change _ = (nodes.set k (mergeNode nodes a b))[a].weight + (nodes.set k (mergeNode nodes a b))[b].weight
      rw [hold ha, hold hb]
      rfl
    · have hlt : k < n := Fin.lt_def.2 (by have : k.val ≠ n.val := fun h => hk' (Fin.ext h); omega)
      obtain ⟨h1, hl, hr, h4, h5⟩ := hint k hk hlt
      rw [hold hlt]
      exact ⟨h1, hl, hr, h4, by rw [hold (hl.trans hlt), hold (hr.trans hlt)]; exact h5⟩

/-- A merge keeps the forest's shape (R146 (a) to (c)). -/
theorem ForestShape.mergeOnce {freq : Vector Word 256} {f : Forest} (h : ForestShape freq f) (h2 : 2 ≤ f.q.length) :
    ForestShape freq (mergeOnce f) := by
  obtain ⟨n, a, b, hn, hab, haq, hbq, han, hbn, hmerge⟩ := h.merge h2
  have hcounts := mergeOnce_counts h2 h.counts
  obtain ⟨hlow, -, hsum, hasc, hbuilt, hone, hq⟩ := h
  have hnext : (Machine.mergeOnce f).nextNode.toNat = n.val + 1 := by rw [hcounts.2, hn]
  have hn256 : 256 ≤ n.val := by omega
  rw [← hn] at hbuilt hone hq
  have hparent (p m : NodeIdx) := parentIn_set (nodes := f.nodes) (a := a) (b := b) (p := p) (m := m) hn256
  have horphan {m : NodeIdx} (hm : m ∈ f.q) (p : NodeIdx) : ¬ ParentIn f.nodes n.val p m :=
    fun hp => ((hq m).1 hm).2 ⟨p, hp⟩
  have hpopped {m : NodeIdx} (hm : m = a ∨ m = b) : m ∈ f.q := by
    rcases hm with rfl | rfl
    · exact haq
    · exact hbq
  refine ⟨by omega, by omega, by omega, ?_, ?_, ?_, ?_⟩
  · rw [hmerge]
    have hsub : ((f.q.erase a).erase b).Sublist f.q := List.erase_sublist.trans List.erase_sublist
    exact List.pairwise_append.2 ⟨hasc.sublist hsub, List.pairwise_singleton _ _, fun m hm m' hm' => by
      rw [List.mem_singleton.1 hm']
      exact Fin.lt_def.2 ((hq m).1 (hsub.subset hm)).1⟩
  · rw [hnext, hmerge]
    exact builtUpTo_set hn256 hbuilt hab han hbn
  · rw [hnext, hmerge]
    intro m p p' hp hp'
    rw [hparent] at hp hp'
    rcases hp with hp | ⟨rfl, hm⟩ <;> rcases hp' with hp' | ⟨rfl, hm'⟩
    · exact hone m p p' hp hp'
    · exact absurd hp (horphan (hpopped hm') p)
    · exact absurd hp' (horphan (hpopped hm) p')
    · rfl
  · rw [hnext, hmerge]
    intro m
    have hnodup : f.q.Nodup := hasc.imp fun h => ne_of_lt h
    have hmem : m ∈ (f.q.erase a).erase b ++ [n] ↔ (m ∈ f.q ∧ m ≠ a ∧ m ≠ b) ∨ m = n := by
      rw [List.mem_append, List.mem_singleton, (hnodup.erase a).mem_erase_iff, hnodup.mem_erase_iff]
      tauto
    simp only [hmem, hparent]
    constructor
    · rintro (⟨hm, hma, hmb⟩ | rfl)
      · refine ⟨Nat.lt_succ_of_lt ((hq m).1 hm).1, ?_⟩
        rintro ⟨p, hp | ⟨-, hp⟩⟩
        · exact horphan hm p hp
        · exact hp.elim hma hmb
      · refine ⟨Nat.lt_succ_self _, ?_⟩
        rintro ⟨p, hp | ⟨-, rfl | rfl⟩⟩
        · have := Fin.lt_def.1 (hbuilt.child_lt hp)
          have := hp.2.1
          omega
        · exact absurd han (lt_irrefl _)
        · exact absurd hbn (lt_irrefl _)
    · rintro ⟨hm, hno⟩
      by_cases hmn : m = n
      · exact .inr hmn
      · have hlt : m.val < n.val := by
          have : m.val ≠ n.val := fun h => hmn (Fin.ext h)
          omega
        refine .inl ⟨(hq m).2 ⟨hlt, fun ⟨p, hp⟩ => hno ⟨p, .inl hp⟩⟩, ?_, ?_⟩
        · exact fun h => hno ⟨n, .inr ⟨rfl, .inl h⟩⟩
        · exact fun h => hno ⟨n, .inr ⟨rfl, .inr h⟩⟩

/-! ### The finished tree -/

/-- With one node left in Q it is 510, and the forest is the tree (R146 (a) to (c)). -/
theorem ForestShape.finished {freq : Vector Word 256} {f : Forest} (h : ForestShape freq f) (h1 : f.q.length = 1) :
    f.q = [510] ∧ TreeShape freq f.nodes := by
  obtain ⟨-, -, hsum, -, hbuilt, hone, hq⟩ := h
  have hnext : f.nextNode.toNat = 511 := by omega
  rw [hnext] at hbuilt hone hq
  have htop : (510 : NodeIdx) ∈ f.q := (hq 510).2 ⟨by decide, fun ⟨p, hp⟩ => by
    have hlt := Fin.lt_def.1 (hbuilt.child_lt hp)
    have h510 : (510 : NodeIdx).val = 510 := rfl
    have := p.isLt
    omega⟩
  obtain ⟨m, hm⟩ := List.length_eq_one_iff.1 h1
  rw [hm, List.mem_singleton] at htop
  subst htop
  refine ⟨hm, hbuilt, hone, fun m => ?_⟩
  have hmem := hq m
  rw [hm, List.mem_singleton] at hmem
  have hval : m = 510 ↔ m.val = 510 := Fin.ext_iff
  have hlt := m.isLt
  constructor
  · intro hm510
    by_contra hno
    have := hval.1 (hmem.2 ⟨hlt, hno⟩)
    omega
  · intro hp
    have hne : m.val ≠ 510 := fun hv => (hmem.1 (hval.2 hv)).2 hp
    omega

/-- What every merge keeps holds of the finished forest. -/
theorem mergeTimes_induction {P : Forest → Prop} (keeps : ∀ f, P f → 2 ≤ f.q.length → P (mergeOnce f))
    (hsum : ∀ f, P f → f.q.length + f.nextNode.toNat = 512) (k : Nat) (f : Forest) (hf : P f)
    (hk : f.q.length = k + 1) : P (mergeTimes k f) ∧ (mergeTimes k f).q.length = 1 := by
  induction k generalizing f with
  | zero => exact ⟨hf, hk⟩
  | succ k ih =>
    have h2 : 2 ≤ f.q.length := by omega
    refine ih (mergeOnce f) (keeps f hf h2) ?_
    rw [(mergeOnce_counts h2 (hsum f hf)).1]
    omega

/-! ### The weight of the forest -/

/-- The weights of the nodes without a parent, added mod 2^32. -/
def queueWeight (f : Forest) : Word := (f.q.map fun m => f.nodes[m].weight).sum

theorem queueWeight_leaves {freq : Vector Word 256} {nodes : Vector Node 511}
    (h : ∀ sym, nodes[leafOf sym] = leafNode (getAt freq sym)) :
    queueWeight { nodes := nodes, q := leaves, nextNode := 256 } = (symbols.map (getAt freq)).sum := by
  rw [queueWeight, leaves, List.map_map]
  refine congrArg List.sum (List.map_congr_left fun sym _ => ?_)
  exact congrArg Node.weight (h sym)

/-- A merge puts the sum of the two weights it takes off Q back on it (R147). -/
theorem queueWeight_mergeOnce {freq : Vector Word 256} {f : Forest} (h : ForestShape freq f) (h2 : 2 ≤ f.q.length) :
    queueWeight (mergeOnce f) = queueWeight f := by
  obtain ⟨n, a, b, hn, hab, haq, hbq, -, -, hmerge⟩ := h.merge h2
  have hsub : ((f.q.erase a).erase b).Sublist f.q := List.erase_sublist.trans List.erase_sublist
  have hrest : ((f.q.erase a).erase b).map (fun m => (f.nodes.set n (mergeNode f.nodes a b))[m].weight) =
      ((f.q.erase a).erase b).map fun m => f.nodes[m].weight := by
    refine List.map_congr_left fun m hm => ?_
    have hlt := h.mem_lt (hsub.subset hm)
    rw [set_get, if_neg fun he => by rw [he, hn] at hlt; exact Nat.lt_irrefl _ hlt]
  have hperm : f.q.Perm (a :: b :: (f.q.erase a).erase b) :=
    (List.perm_cons_erase haq).trans (.cons a (List.perm_cons_erase ((List.mem_erase_of_ne hab.symm).2 hbq)))
  have hq := (hperm.map fun m => f.nodes[m].weight).sum_eq
  rw [List.map_cons, List.map_cons, List.sum_cons, List.sum_cons] at hq
  rw [queueWeight, queueWeight, hq, hmerge]
  simp only [List.map_append, List.map_cons, List.map_nil, List.sum_append, List.sum_cons, List.sum_nil]
  rw [hrest, set_get, if_pos rfl, mergeNode]
  ring

theorem toNat_sum (words : List Word) : words.sum.toNat = (words.map BitVec.toNat).sum % 2 ^ 32 := by
  induction words with
  | nil => rfl
  | cons w rest ih => rw [List.sum_cons, List.map_cons, List.sum_cons, BitVec.toNat_add, ih, Nat.add_mod_mod]

theorem buildFinish_root (s : State) : (buildFinish s).root = s.q.headD s.root := by
  rw [buildFinish, finishElement_root]
  rfl

theorem buildFinish_nodes (s : State) : (buildFinish s).nodes = s.nodes := by
  rw [buildFinish, finishElement_nodes]
  rfl

theorem forestOf_buildInit (s : State) :
    forestOf (buildInit s) = { nodes := withLeaves s.freq s.nodes, q := leaves, nextNode := 256 } := by
  simp only [forestOf, buildInit]

/-- A forest that has the shape, and the weight of the counters. -/
def ForestOf (freq : Vector Word 256) (f : Forest) : Prop :=
  ForestShape freq f ∧ queueWeight f = (symbols.map (getAt freq)).sum

theorem ForestOf.finished {freq : Vector Word 256} {f : Forest} (h : ForestOf freq f) (h1 : f.q.length = 1) :
    f.q = [510] ∧ TreeShape freq f.nodes ∧ f.nodes[(510 : NodeIdx)].weight = (symbols.map (getAt freq)).sum := by
  obtain ⟨hshape, hweight⟩ := h
  obtain ⟨hq, htree⟩ := hshape.finished h1
  refine ⟨hq, htree, ?_⟩
  rw [← hweight, queueWeight, hq, List.map_cons, List.map_nil, List.sum_singleton]

/-- The 255 merges of BUILD_TREE lead from the leaves to the forest of one tree. -/
theorem mergeTimes_leaves {freq : Vector Word 256} {nodes : Vector Node 511}
    (h : ∀ sym, nodes[leafOf sym] = leafNode (getAt freq sym)) :
    ForestOf freq (mergeTimes 255 { nodes := nodes, q := leaves, nextNode := 256 }) ∧
      (mergeTimes 255 { nodes := nodes, q := leaves, nextNode := 256 }).q.length = 1 := by
  have hleaves := And.intro (forestShape_leaves h) (queueWeight_leaves h)
  refine mergeTimes_induction (P := ForestOf freq) ?_ ?_ 255 _ hleaves leaves_length
  · intro f hf h2
    exact ⟨hf.1.mergeOnce h2, (queueWeight_mergeOnce hf.1 h2).trans hf.2⟩
  · intro f hf
    exact hf.1.counts

/-- What BUILD_TREE leaves in ROOT and the arena (R145, R146). -/
theorem buildBody_tree {s t : State} (h : buildBody s = .next t) :
    t.root = 510 ∧ TreeShape s.freq t.nodes ∧
      t.nodes[(510 : NodeIdx)].weight = (symbols.map (getAt s.freq)).sum := by
  have hbody : buildBody s =
      .next (buildFinish (withForest (mergeTimes (leaves.length - 1) (forestOf (buildInit s))) (buildInit s))) := rfl
  rw [hbody, leaves_length] at h
  cases h
  obtain ⟨hforest, h1⟩ := mergeTimes_leaves (withLeaves_leaf s.freq s.nodes)
  obtain ⟨hq, htree, hweight⟩ := hforest.finished h1
  rw [buildFinish_root, buildFinish_nodes, withForest_q, withForest_nodes, forestOf_buildInit, hq]
  exact ⟨rfl, htree, hweight⟩

/-- Settles O20: every merge keeps the total weight of Q, which begins as the sum of FREQ and ends as the root's. -/
theorem rootWeightIsTheSum : Obligations.RootWeightIsTheSum := by
  intro s t hb h
  have hbody : exec .buildTree s = buildBody (accept .buildTree s) :=
    (issue_idle hb .buildTree [buildBody]).trans (runElements_single _ _)
  obtain ⟨hroot, -, hweight⟩ := buildBody_tree (hbody.symm.trans h)
  have hat : t.nodes[t.root].weight = t.nodes[(510 : NodeIdx)].weight :=
    congrArg (fun n : NodeIdx => t.nodes[n].weight) hroot
  refine ⟨hroot, ?_⟩
  rw [hat, hweight, toNat_sum, List.map_map]
  rfl

end Sys2Proof.Machine
end

section
/-! SUPPORT. The invariants (10_state.md R23 to R35, R42, R63): what every move of the host and every micro-step keeps
holds after every step. -/

namespace Sys2Proof.Machine

/-! ### What every move keeps -/

theorem writeCmd_drops {i : Instr} {w : Word} {s : State} (hw : decode w = .ok i) (hi : i ≠ .reset)
    (hb : s.busy = true) : writeCmd w s = dropWrite s := by
  rw [writeCmd, hw]
  cases i with
  | reset => exact absurd rfl hi
  | _ => exact if_pos hb

/-- The moves a step can be made of, each as far as it changes a state: a predicate closed under them is kept by every
step (20_memory.md R86). -/
structure MoveClosed (P : State → Prop) : Prop where
  /-- the model's own fields: the script moves on, the host reads -/
  record (s : State) (script : List HostMove) (reads : List (Nat × Word)) (draws : Nat) (h : P s) :
    P { s with script := script, reads := reads, draws := draws }
  /-- a write dropped while busy (R38) -/
  drop (s : State) (h : P s) : P (dropWrite s)
  /-- a write of STATUS (R43) -/
  status (s : State) (v : Word) (h : P s) : P (clearStatus v s)
  /-- a write of a read-write register while idle (R40, R46, R50, R55, R58) -/
  register (s : State) (ie : Bool) (lastBits : BitVec 3) (freqIdx : Byte) (codeIdx : BitVec 11) (nodeIdx : BitVec 9)
    (hb : s.busy = false) (h : P s) :
    P { s with ie := ie, lastBits := lastBits, freqIdx := freqIdx, codeIdx := codeIdx, nodeIdx := nodeIdx }
  /-- a write of FREQ_DATA while idle (R52) -/
  counter (s : State) (freq : Vector Word 256) (hb : s.busy = false) (h : P s) :
    P { clearTreeValid s with freq := freq }
  /-- a source attached while idle (R71) -/
  attach (s : State) (bytes : List Byte) (hb : s.busy = false) (h : P s) : P { s with src := bytes, inPos := 0 }
  /-- the reset action (R250) -/
  reset (s : State) (h : P s) : P (resetAction s)
  /-- an illegal word written while idle (R228) -/
  illegal (s : State) (w : Word) (hb : s.busy = false) (h : P s) : P (illegalCommand w s)
  /-- a command accepted while idle (R41) -/
  accept (s : State) (i : Instr) (hi : i ≠ .reset) (hb : s.busy = false) (h : P s) : P (accept i s)
  /-- a micro-step (R24) -/
  micro (s t : State) (hb : s.busy = true) (hm : MicroStep s t) (h : P s) : P t

section
variable {P : State → Prop} (closed : MoveClosed P)
include closed

theorem MoveClosed.microStep {s t : State} (h : P s) (hm : microStep s = .next t) : P t := by
  rcases microStep_cases hm with ⟨-, rfl⟩ | ⟨hb, hm⟩
  · exact h
  · exact closed.micro s t hb hm h

theorem MoveClosed.whileIdle {f : State → State} {s : State} (h : P s) (hf : s.busy = false → P (f s)) :
    P (whileIdle f s) := by
  unfold Machine.whileIdle
  split
  next hb => exact closed.drop s h
  next hb => exact hf (eq_false_of_ne_true hb)

theorem MoveClosed.writeCmd {s : State} (h : P s) (w : Word) : P (writeCmd w s) := by
  cases hd : decode w with
  | error e =>
    simp only [Machine.writeCmd, hd]
    exact closed.whileIdle h fun hb => closed.illegal s w hb h
  | ok i =>
    by_cases hi : i = .reset
    · subst hi
      simp only [Machine.writeCmd, hd]
      exact closed.reset s h
    · cases hb : s.busy with
      | false =>
        rw [writeCmd_accepts hd hi hb]
        exact closed.accept s i hi hb h
      | true =>
        rw [writeCmd_drops hd hi hb]
        exact closed.drop s h

theorem MoveClosed.exec {s t : State} {i : Instr} (h : P s) (he : exec i s = .next t) : P t := by
  by_cases hi : i = .reset
  · subst hi
    cases he
    exact closed.reset s h
  · cases hb : s.busy with
    | false => exact exec_induction (fun u v => closed.microStep) hi hb (closed.accept s i hi hb h) he
    | true =>
      rw [exec_eq_issue hi, issue_busy hb] at he
      cases he
      exact closed.drop s h

theorem MoveClosed.runCommand {s t : State} {w : Word} (h : P s) (hr : runCommand w s = .next t) : P t := by
  unfold Machine.runCommand at hr
  split at hr
  · exact closed.exec h hr
  · cases hr
    exact closed.writeCmd h w

theorem MoveClosed.hostRead {s t : State} {off : Nat} (h : P s) (hr : hostRead off s = .next t) : P t := by
  obtain ⟨reads, draws, rfl⟩ := hostRead_state hr
  exact closed.record s s.script reads draws h

theorem MoveClosed.writeReg {s : State} (h : P s) (r : Reg) (v : Word) : P (writeReg r v s) := by
  cases r with
  | cmd => exact closed.writeCmd h v
  | status => exact closed.status s v h
  | freqData =>
    rw [Machine.writeReg]
    exact closed.whileIdle h fun hb => closed.counter s _ hb h
  | ctrl | lastBits | freqIdx | codeIdx | nodeIdx =>
    rw [Machine.writeReg]
    exact closed.whileIdle h fun hb => closed.register s _ _ _ _ _ hb h
  | _ => exact h

theorem MoveClosed.hostWrite {s t : State} {off : Nat} {v : Word} (h : P s) (hw : hostWrite off v s = .next t) :
    P t := by
  unfold Machine.hostWrite at hw
  split at hw
  · cases hw
    split
    · exact closed.writeReg h _ v
    · exact h
  · cases hw

theorem MoveClosed.hostWait {s t : State} (h : P s) (hw : hostWait s = .next t) : P t := by
  unfold Machine.hostWait at hw
  split at hw
  · obtain ⟨u, hu, ht⟩ := andThen_eq_next.1 hw
    cases ht
    exact closed.record u _ u.reads u.draws (closed.microStep h hu)
  · exact closed.hostRead h hw

theorem MoveClosed.hostMove {s t : State} {m : HostMove} (h : P s) (hm : hostMove m s = .next t) : P t := by
  cases m with
  | read off => exact closed.hostRead h hm
  | write off v => exact closed.hostWrite h hm
  | attach bytes =>
    simp only [Machine.hostMove, hostAttach] at hm
    split at hm
    · cases hm
    next hb =>
      cases hm
      exact closed.attach s bytes (eq_false_of_ne_true hb) h
  | hardReset =>
    cases hm
    exact closed.reset s h
  | wait => exact closed.hostWait h hm
  | turn => exact closed.microStep h hm
  | command w => exact closed.runCommand h hm

/-- A predicate that every move keeps is kept by every step. -/
theorem MoveClosed.step {s t : State} (h : P s) (hs : step s = .next t) : P t := by
  rcases step_cases s with ⟨-, heq⟩ | ⟨m, rest, -, heq⟩ <;> rw [heq] at hs
  · exact closed.microStep h hs
  · exact closed.hostMove (closed.record s rest s.reads s.draws h) hs

end

/-! ### The sequencer invariant -/

/-- The hidden datapath state is empty, as between two elements (R31 to R33). -/
def Drained (s : State) : Prop := s.q = [] ∧ s.acc = [] ∧ s.pendingValid = false

/-- No more bytes have been read than SRC has (R35). -/
def InputOk (s : State) : Prop := s.inPos ≤ s.src.length

theorem hiddenOk_start {s : State} {e : Instr} (hp : s.phase = startPhase e) (h : Drained s) : HiddenOk s := by
  cases e with
  | readHeader =>
    simp only [HiddenOk, hp, startPhase]
    exact ⟨by decide, h⟩
  | _ =>
    simp only [HiddenOk, hp, startPhase]
    exact h

theorem hiddenOk_finishElement {s : State} (h : Drained s) : HiddenOk (finishElement s) := by
  rcases finishElement_cases s with ⟨e, rest, -, hfin⟩ | ⟨-, hfin⟩ <;> rw [hfin]
  · exact hiddenOk_start (e := e) rfl h
  · exact h

theorem hiddenOk_abort (cause : Cause) (info : Word) (s : State) : HiddenOk (abort cause info s) := ⟨rfl, rfl, rfl⟩

theorem hiddenOk_packNext {s : State} (hlen : s.acc.length ≤ 262) (hq : s.q = []) (hv : s.pendingValid = false) :
    HiddenOk (packNext s) := by
  by_cases h8 : 8 ≤ s.acc.length
  · rw [packNext_emit h8]
    exact ⟨h8, hlen, hq, hv⟩
  · rw [packNext_read (by omega)]
    exact ⟨show s.acc.length ≤ 7 by omega, hq, hv⟩

theorem hiddenOk_walkByteDone {s : State} {held : Option Byte} (hq : s.q = []) (hacc : s.acc = []) :
    HiddenOk (walkByteDone held s) := by
  cases held with
  | some b => exact ⟨hq, hacc⟩
  | none => exact hiddenOk_finishElement ⟨hq, hacc, rfl⟩

theorem walkOn_hidden (bit : Bool) (s : State) :
    (walkOn bit s).q = s.q ∧ (walkOn bit s).acc = s.acc ∧ (walkOn bit s).pendingValid = s.pendingValid := by
  rcases walkOn_cases bit s with ⟨-, h⟩ | ⟨-, h⟩ <;> rw [h] <;> exact ⟨rfl, rfl, rfl⟩

theorem storeCounter_hidden (n : Nat) (v : Word) (s : State) :
    let t := storeCounter n v (consume (clearAtFirst n s))
    t.q = s.q ∧ t.acc = s.acc ∧ t.pendingValid = s.pendingValid := by
  unfold storeCounter clearAtFirst
  split <;> split <;> exact ⟨rfl, rfl, rfl⟩

theorem MicroStep.hiddenOk {s t : State} (hm : MicroStep s t) (h : HiddenOk s) : HiddenOk t := by
  cases hm with
  | missingFlag | countFull | headerTruncated | lastBitsAbsent | lastBitsRange | walkOffTree | mismatch =>
    exact hiddenOk_abort _ _ _
  | countByte => exact h
  | nop hp | rewind hp | countEnd hp | deriveEnd hp | headerLast hp | lastBits hp | verifyEnd hp =>
    simp only [HiddenOk, hp] at h
    exact hiddenOk_finishElement h
  | countClear hp | deriveStart hp | deriveLeaf hp | walkStart hp | verifyStart hp | verifyNext hp =>
    simp only [HiddenOk, hp] at h
    exact h
  | headerSum hp =>
    simp only [HiddenOk, hp] at h
    simp only [HiddenOk, goTo, Machine.headerSum]
    exact h
  | buildInit hp =>
    simp only [HiddenOk, hp] at h
    exact h.2
  | merge hp =>
    simp only [HiddenOk, hp, withForest_phase] at h ⊢
    exact h
  | buildEnd hp =>
    simp only [HiddenOk, hp] at h
    exact hiddenOk_finishElement ⟨rfl, h⟩
  | headerStart hp =>
    simp only [HiddenOk, hp] at h
    exact ⟨by decide, h⟩
  | headerNext hp hn =>
    simp only [HiddenOk, hp] at h
    exact ⟨hn, h.2⟩
  | headerEnd hp =>
    simp only [HiddenOk, hp] at h
    exact h.2
  | packStart hp =>
    simp only [HiddenOk, hp] at h
    obtain ⟨hq, -, hv⟩ := h
    exact ⟨Nat.zero_le _, hq, hv⟩
  | packEnd hp hacc =>
    simp only [HiddenOk, hp] at h
    obtain ⟨-, hq, hv⟩ := h
    exact hiddenOk_finishElement ⟨hq, hacc, hv⟩
  | packPartial hp hacc =>
    simp only [HiddenOk, hp] at h
    exact ⟨List.length_pos_iff.2 hacc, h⟩
  | @packByte b rest hp hr =>
    simp only [HiddenOk, hp] at h
    obtain ⟨hlen, hq, hv⟩ := h
    have hcode := (getAt s.codes b).len.isLt
    refine hiddenOk_packNext ?_ hq hv
    change (s.acc ++ codeBits (getAt s.codes b)).length ≤ 262
    rw [List.length_append, codeBits_length]
    omega
  | packEmit hp =>
    simp only [HiddenOk, hp] at h
    obtain ⟨-, hlen, hq, hv⟩ := h
    refine hiddenOk_packNext ?_ hq hv
    change (s.acc.drop 8).length ≤ 262
    rw [List.length_drop]
    omega
  | packFlush hp =>
    simp only [HiddenOk, hp] at h
    obtain ⟨-, -, hq, hv⟩ := h
    exact hiddenOk_finishElement ⟨hq, rfl, hv⟩
  | @counterNext n v v' u b rest hp hr hn =>
    simp only [HiddenOk, hp] at h
    obtain ⟨-, hq, hacc, hv⟩ := h
    obtain ⟨hq', hacc', hv'⟩ := storeCounter_hidden n v' s
    exact ⟨hn, hq'.trans hq, hacc'.trans hacc, hv'.trans hv⟩
  | @counterEnd n v v' b rest hp =>
    simp only [HiddenOk, hp] at h
    obtain ⟨-, hq, hacc, hv⟩ := h
    obtain ⟨hq', hacc', hv'⟩ := storeCounter_hidden n v' s
    exact ⟨hq'.trans hq, hacc'.trans hacc, hv'.trans hv⟩
  | walkClear hp =>
    simp only [HiddenOk, hp] at h
    exact ⟨h.1, h.2.1⟩
  | walkEmpty hp =>
    simp only [HiddenOk, hp] at h
    exact hiddenOk_finishElement ⟨h.1, h.2, rfl⟩
  | walkEnd hp hv =>
    simp only [HiddenOk, hp] at h
    exact ⟨(finalBits_bounds _).1, (finalBits_bounds _).2, h.1, h.2, hv⟩
  | walkFirst hp =>
    simp only [HiddenOk, hp] at h
    exact h
  | walkNext hp hr hv =>
    simp only [HiddenOk, hp] at h
    exact ⟨by decide, by decide, h.1, h.2, hv⟩
  | @walkBit k held hp =>
    simp only [HiddenOk, hp] at h
    obtain ⟨-, h8, hq, hacc, hv⟩ := h
    obtain ⟨hq', hacc', hv'⟩ := walkOn_hidden (s.pending.getLsbD (k + 1)) s
    exact ⟨by omega, by omega, hq'.trans hq, hacc'.trans hacc, hv'.trans hv⟩
  | walkLastBit hp =>
    simp only [HiddenOk, hp] at h
    obtain ⟨-, -, hq, hacc, -⟩ := h
    obtain ⟨hq', hacc', -⟩ := walkOn_hidden (s.pending.getLsbD 0) s
    exact hiddenOk_walkByteDone (hq'.trans hq) (hacc'.trans hacc)
  | walkNoBit hp =>
    simp only [HiddenOk, hp] at h
    exact absurd h.1 (by decide)

theorem inputOk_consume {s : State} {b : Byte} {rest : List Byte} (hr : unread s = b :: rest) :
    InputOk (consume s) := by
  have hlen := congrArg List.length hr
  rw [unread, List.length_drop, List.length_cons] at hlen
  change s.inPos + 1 ≤ s.src.length
  omega

theorem inputOk_finishElement {s : State} (h : InputOk s) : InputOk (finishElement s) := by
  unfold InputOk
  rw [finishElement_inPos, finishElement_src]
  exact h

theorem inputOk_walkByteDone {s : State} {held : Option Byte} (h : InputOk s) : InputOk (walkByteDone held s) := by
  cases held with
  | some b => exact h
  | none => exact inputOk_finishElement h

theorem inputOk_walkOn {s : State} (bit : Bool) (h : InputOk s) : InputOk (walkOn bit s) := by
  rcases walkOn_cases bit s with ⟨-, hw⟩ | ⟨-, hw⟩ <;> rw [hw] <;> exact h

theorem inputOk_storeCounter {s : State} (n : Nat) (v : Word) (h : InputOk (consume s)) :
    InputOk (storeCounter n v (consume (clearAtFirst n s))) := by
  unfold storeCounter clearAtFirst
  split <;> split <;> exact h

theorem MicroStep.inputOk {s t : State} (hm : MicroStep s t) (h : InputOk s) : InputOk t := by
  cases hm with
  | nop | countEnd | buildEnd | deriveEnd | headerLast | packEnd | packFlush | walkEmpty | verifyEnd =>
    exact inputOk_finishElement h
  | rewind => exact inputOk_finishElement (Nat.zero_le _)
  | countFull hp hr | countByte hp hr | packByte hp hr | lastBitsRange hp hr | walkFirst hp hr | walkNext hp hr =>
    exact inputOk_consume hr
  | lastBits hp hr => exact inputOk_finishElement (inputOk_consume hr)
  | counterNext hp hr | counterEnd hp hr => exact inputOk_storeCounter _ _ (inputOk_consume hr)
  | headerTruncated =>
    unfold clearAtFirst
    split <;> exact h
  | walkBit => exact inputOk_walkOn _ h
  | walkLastBit => exact inputOk_walkByteDone (inputOk_walkOn _ h)
  | walkNoBit => exact inputOk_walkByteDone h
  | headerSum =>
    simp only [InputOk, goTo, Machine.headerSum]
    exact h
  | _ => exact h

/-! ### The control fields -/

/-- What the sequencer invariant says of the control fields while a command runs. -/
structure Running (s : State) : Prop where
  busy : s.busy = true
  done : s.done = false
  err : s.err = false
  errCause : s.errCause = .none
  errOp : s.errOp = 0
  errInfo : s.errInfo = 0

theorem ControlInv.running {s : State} (h : ControlInv s) (hb : s.busy = true) : Running s ∧ PositionOk s := by
  obtain ⟨-, hbusy, -, -, herr, -⟩ := h
  obtain ⟨hdone, he, hcause, hpos⟩ := hbusy hb
  exact ⟨⟨hb, hdone, he, hcause, (herr hcause).1, (herr hcause).2⟩, hpos⟩

theorem ControlInv.idle_position {s : State} (h : ControlInv s) (hb : s.busy = false) :
    s.issuedOp = 0 ∧ s.curOp = 0 ∧ s.mstep = 0 ∧ s.phase = .idle := by
  obtain ⟨hidle, -⟩ := h
  exact hidle hb

theorem ControlInv.idle_phase {s : State} (h : ControlInv s) (hb : s.busy = false) : s.phase = .idle := by
  obtain ⟨-, -, -, hp⟩ := h.idle_position hb
  exact hp

theorem ControlInv.hiddenOk {s : State} (h : ControlInv s) : HiddenOk s := by
  obtain ⟨-, -, hh, -⟩ := h
  exact hh

theorem ControlInv.not_both {s : State} (h : ControlInv s) : ¬(s.done = true ∧ s.err = true) := by
  obtain ⟨-, -, -, hboth, -⟩ := h
  exact hboth

theorem ControlInv.no_cause {s : State} (h : ControlInv s) : s.errCause = .none → s.errOp = 0 ∧ s.errInfo = 0 := by
  obtain ⟨-, -, -, -, herr, -⟩ := h
  exact herr

theorem ControlInv.inputOk {s : State} (h : ControlInv s) : InputOk s := by
  obtain ⟨-, -, -, -, -, hi⟩ := h
  exact hi

theorem Running.of_control {s u : State} (h : Running s) (hc : control u = control s) : Running u where
  busy := (congrArg Control.busy hc).trans h.busy
  done := (congrArg Control.done hc).trans h.done
  err := (congrArg Control.err hc).trans h.err
  errCause := (congrArg Control.errCause hc).trans h.errCause
  errOp := (congrArg Control.errOp hc).trans h.errOp
  errInfo := (congrArg Control.errInfo hc).trans h.errInfo

theorem PositionOk.of_control {s u : State} (h : PositionOk s) (hc : control u = control s)
    (hp : phaseElement u.phase = phaseElement s.phase) : PositionOk u := by
  obtain ⟨i, e, hi, he, hcur, hphase⟩ := h
  refine ⟨i, e, (congrArg Control.issuedOp hc).trans hi, ?_, (congrArg Control.curOp hc).trans hcur, hp.trans hphase⟩
  rw [show u.mstep = s.mstep from congrArg Control.mstep hc]
  exact he

/-- A running state meets the sequencer invariant where its position and hidden state do. -/
theorem Running.controlInv {s : State} (h : Running s) (hpos : PositionOk s) (hh : HiddenOk s) (hi : InputOk s) :
    ControlInv s :=
  ⟨fun hb => absurd (hb.symm.trans h.busy) Bool.false_ne_true, fun _ => ⟨h.done, h.err, h.errCause, hpos⟩, hh,
    fun hd => Bool.false_ne_true (h.done.symm.trans hd.1), fun _ => ⟨h.errOp, h.errInfo⟩, hi⟩

theorem phaseElement_startPhase {e : Instr} (h : startPhase e ≠ .idle) : phaseElement (startPhase e) = some e := by
  cases e with
  | reset | encode | decode => exact absurd rfl h
  | _ => rfl

/-- The next element of a command starts at a position of its own (30 R106). -/
theorem positionOk_next {u : State} {e : Instr} {rest : List Instr} {i : Instr} (hissued : u.issuedOp = opcodeOf i)
    (hlater : laterElements u = e :: rest) : PositionOk (enterElement e { u with mstep := u.mstep + 1 }) := by
  obtain ⟨j, hj, hdrop, hm⟩ := drop_of_laterElements hlater
  rw [hissued, instrOfOpcode_opcodeOf] at hj
  cases hj
  have hmem : e ∈ expansion i := List.mem_of_mem_drop (hdrop ▸ List.mem_cons_self)
  have hget : (expansion i)[(u.mstep + 1).toNat]? = some e := by
    rw [hm, ← Nat.add_zero (u.mstep.toNat + 1), ← List.getElem?_drop, hdrop]
    rfl
  have hne : i ≠ .reset := by
    rintro rfl
    simp [expansion] at hdrop
  exact ⟨i, e, hissued, hget, rfl, phaseElement_startPhase (expansion_primitive hne e hmem)⟩

theorem Running.finishElement {s u : State} (h : Running s) (hpos : PositionOk s) (hc : control u = control s)
    (hh : HiddenOk (finishElement u)) (hi : InputOk (finishElement u)) : ControlInv (finishElement u) := by
  have hu := h.of_control hc
  rcases finishElement_cases u with ⟨e, rest, hlater, hfin⟩ | ⟨-, hfin⟩ <;> rw [hfin] at hh hi ⊢
  · obtain ⟨i, -, hissued, -⟩ := hpos
    have hrun : Running (enterElement e { u with mstep := u.mstep + 1 }) :=
      ⟨hu.busy, hu.done, hu.err, hu.errCause, hu.errOp, hu.errInfo⟩
    exact hrun.controlInv (positionOk_next ((congrArg Control.issuedOp hc).trans hissued) hlater) hh hi
  · exact ⟨fun _ => ⟨rfl, rfl, rfl, rfl⟩, fun hb => absurd hb Bool.false_ne_true, hh,
      fun hd => Bool.false_ne_true (hu.err.symm.trans hd.2), fun _ => ⟨hu.errOp, hu.errInfo⟩, hi⟩

theorem controlInv_abort {u : State} {cause : Cause} {info : Word} (hdone : u.done = false) (hne : cause ≠ .none)
    (hi : InputOk (abort cause info u)) : ControlInv (abort cause info u) :=
  ⟨fun _ => ⟨rfl, rfl, rfl, rfl⟩, fun hb => absurd hb Bool.false_ne_true, hiddenOk_abort _ _ _,
    fun hd => Bool.false_ne_true (hdone.symm.trans hd.1), fun hc => absurd hc hne, hi⟩

theorem MicroStep.controlInv {s t : State} (hb : s.busy = true) (hm : MicroStep s t) (h : ControlInv s) :
    ControlInv t := by
  obtain ⟨hrun, hpos⟩ := h.running hb
  have hh : HiddenOk t := hm.hiddenOk h.hiddenOk
  have hi : InputOk t := hm.inputOk h.inputOk
  cases hm.outcome with
  | goesOn hu hp => exact (hrun.of_control hu.control).controlInv (hpos.of_control hu.control hp) hh hi
  | finishes hu => exact hrun.finishElement hpos hu.control hh hi
  | raises info hne hu => exact controlInv_abort (hrun.of_control hu.control).done hne hi

/-- Acceptance starts the command's first element (R41). -/
theorem positionOk_accept {i : Instr} (hi : i ≠ .reset) (s : State) : PositionOk (accept i s) := by
  have hstart (e : Instr) (he : (expansion i).head? = some e) : PositionOk (accept i s) := by
    have hget : (expansion i)[0]? = some e := by rw [← List.head?_eq_getElem?, he]
    have hhead : (expansion i).headD i = e := by rw [List.headD_eq_head?_getD, he]; rfl
    have hprim := phaseElement_startPhase (expansion_primitive hi e (List.mem_of_getElem? hget))
    exact ⟨i, e, rfl, hget, congrArg opcodeOf hhead, by rw [accept_phase, hhead]; exact hprim⟩
  cases i <;> exact hstart _ rfl

theorem ControlInv.drained_of_idle {s : State} (h : ControlInv s) (hb : s.busy = false) : Drained s := by
  have hh := h.hiddenOk
  simp only [HiddenOk, h.idle_phase hb] at hh
  exact hh

/-- A host's write of STATUS while busy finds DONE and ERR at 0, and leaves them there. -/
theorem controlInv_clearStatus {s : State} (v : Word) (h : ControlInv s) : ControlInv (clearStatus v s) := by
  obtain ⟨hidle, hbusy, hh, hboth, herr, hi⟩ := h
  refine ⟨hidle, fun hb => ?_, hh, fun hd => ?_, herr, hi⟩
  · obtain ⟨hdone, he, hcause, hpos⟩ := hbusy hb
    refine ⟨?_, ?_, hcause, hpos⟩
    · simp only [clearStatus, hdone, Bool.false_and]
    · simp only [clearStatus, he, Bool.false_and]
  · simp only [clearStatus, Bool.and_eq_true] at hd
    exact hboth ⟨hd.1.1, hd.2.1⟩

theorem controlInv_accept {s : State} {i : Instr} (hi : i ≠ .reset) (hb : s.busy = false) (h : ControlInv s) :
    ControlInv (accept i s) := by
  have hrun : Running (accept i s) := ⟨rfl, rfl, rfl, rfl, rfl, rfl⟩
  have hdrained : Drained (accept i s) := h.drained_of_idle hb
  exact hrun.controlInv (positionOk_accept hi s) (hiddenOk_start (accept_phase i s) hdrained) h.inputOk

/-- The sequencer invariant of an idle state with an idle position. -/
theorem controlInv_of_idle {s : State} (hb : s.busy = false)
    (hpos : s.issuedOp = 0 ∧ s.curOp = 0 ∧ s.mstep = 0 ∧ s.phase = .idle) (hdrained : Drained s)
    (hboth : ¬(s.done = true ∧ s.err = true)) (herr : s.errCause = .none → s.errOp = 0 ∧ s.errInfo = 0)
    (hi : InputOk s) : ControlInv s := by
  obtain ⟨hissued, hcur, hmstep, hphase⟩ := hpos
  exact ⟨fun _ => ⟨hissued, hcur, hmstep, hphase⟩, fun h => absurd (hb.symm.trans h) Bool.false_ne_true,
    hiddenOk_start (e := .reset) hphase hdrained, hboth, herr, hi⟩

theorem controlInv_reset (s : State) : ControlInv (resetAction s) :=
  controlInv_of_idle rfl ⟨rfl, rfl, rfl, rfl⟩ ⟨rfl, rfl, rfl⟩ (fun h => Bool.false_ne_true h.1)
    (fun _ => ⟨rfl, rfl⟩) (Nat.zero_le _)

theorem controlInv_illegal {s : State} (w : Word) (hb : s.busy = false) (h : ControlInv s) :
    ControlInv (illegalCommand w s) :=
  controlInv_of_idle hb (h.idle_position hb) (h.drained_of_idle hb) (fun h => Bool.false_ne_true h.1)
    (fun hc => by cases hc) h.inputOk

theorem controlInv_attach {s : State} (bytes : List Byte) (hb : s.busy = false) (h : ControlInv s) :
    ControlInv { s with src := bytes, inPos := 0 } :=
  controlInv_of_idle hb (h.idle_position hb) (h.drained_of_idle hb) h.not_both h.no_cause (Nat.zero_le _)

theorem controlInv_closed : MoveClosed ControlInv where
  record _ _ _ _ h := h
  drop _ h := h
  status _ v h := controlInv_clearStatus v h
  register _ _ _ _ _ _ _ h := h
  counter _ _ _ h := h
  attach _ bytes hb h := controlInv_attach bytes hb h
  reset s _ := controlInv_reset s
  illegal _ w hb h := controlInv_illegal w hb h
  accept _ _ hi hb h := controlInv_accept hi hb h
  micro _ _ hb hm h := hm.controlInv hb h

/-- Settles O55: the sequencer invariant is kept by every move of the host and by every micro-step. -/
theorem stepKeepsControlInv : Obligations.StepKeepsControlInv := fun _ _ h hs => controlInv_closed.step h hs

end Sys2Proof.Machine
end

section
/-! SUPPORT. The table invariant (10_state.md R42, R63; 41_tree_builder.md R146): the flags tell the truth after every
step, and at each position the tables are as the running primitive left them. -/

namespace Sys2Proof.Machine

/-! ### The flags -/

/-- What the flags say of the tables at every position (R63). -/
def FlagsTrue (s : State) : Prop :=
  (s.treeValid = true → s.root = 510 ∧ TreeShape s.freq s.nodes) ∧ (s.codesValid = true → s.treeValid = true)

theorem FlagsTrue.of_cleared {s : State} (ht : s.treeValid = false) (hc : s.codesValid = false) : FlagsTrue s :=
  ⟨fun h => absurd (ht.symm.trans h) Bool.false_ne_true, fun h => absurd (hc.symm.trans h) Bool.false_ne_true⟩

theorem FlagsTrue.codes_cleared {s : State} (h : FlagsTrue s) (ht : s.treeValid = false) : s.codesValid = false := by
  cases hc : s.codesValid with
  | false => rfl
  | true => exact absurd (ht.symm.trans (h.2 hc)) Bool.false_ne_true

theorem TreeInv.flagsTrue {s : State} (h : TreeInv s) : FlagsTrue s := by
  obtain ⟨htree, hcodes, -⟩ := h
  exact ⟨htree, hcodes⟩

/-- At the start of an element, and while idle, the flags are all there is to say. -/
theorem treeInv_start {s : State} {e : Instr} (hp : s.phase = startPhase e) (h : FlagsTrue s) : TreeInv s := by
  refine ⟨h.1, h.2, ?_⟩
  cases e with
  | readHeader =>
    simp only [hp, startPhase]
    exact fun h0 => absurd h0 (Nat.lt_irrefl 0)
  | _ => simp only [hp, startPhase]

theorem treeInv_finishElement {s : State} (h : FlagsTrue s) : TreeInv (finishElement s) := by
  rcases finishElement_cases s with ⟨e, rest, -, hfin⟩ | ⟨-, hfin⟩ <;> rw [hfin]
  · exact treeInv_start (e := e) rfl h
  · exact treeInv_start (e := .reset) rfl h

theorem treeInv_abort {s : State} (cause : Cause) (info : Word) (h : FlagsTrue s) : TreeInv (abort cause info s) :=
  treeInv_start (e := .reset) rfl h

/-! ### The walk and the paths on a tree -/

theorem TreeShape.internal {freq : Vector Word 256} {nodes : Vector Node 511} (h : TreeShape freq nodes) {n : NodeIdx}
    (hn : nodes[n].leaf = false) : nodes[n].left < n ∧ nodes[n].right < n := by
  obtain ⟨hbuilt, -⟩ := h
  have h256 : 256 ≤ n.val := by
    by_contra hlt
    exact Bool.false_ne_true (hn.symm.trans (hbuilt.leaf (Nat.lt_of_not_le hlt)))
  obtain ⟨-, hl, hr, -⟩ := hbuilt.2 n h256 n.isLt
  exact ⟨hl, hr⟩

theorem TreeShape.root_internal {freq : Vector Word 256} {nodes : Vector Node 511} (h : TreeShape freq nodes) :
    nodes[(510 : NodeIdx)].leaf = false := (h.1.2 510 (by decide) (by decide)).1

/-- A path from ROOT, with the node it leads to, that is no deeper than the node allows (R150). -/
def PathOk (nodes : Vector Node 511) (top : NodeIdx × List Bool) : Prop :=
  follow nodes 510 top.2 = top.1 ∧ top.1.val + top.2.length ≤ 510

theorem PathOk.child {nodes : Vector Node 511} {n : NodeIdx} {c : List Bool} (h : PathOk nodes (n, c)) (bit : Bool)
    (hlt : childOf nodes n bit < n) : PathOk nodes (childOf nodes n bit, c ++ [bit]) := by
  obtain ⟨hfollow, hlen⟩ := h
  refine ⟨?_, ?_⟩
  · simp only [follow] at hfollow ⊢
    rw [List.foldl_append, hfollow]
    rfl
  · have := Fin.lt_def.1 hlt
    simp only [List.length_append, List.length_singleton] at hlen ⊢
    omega

/-- Going down puts only such paths on the path stack. -/
theorem pathOk_descend {freq : Vector Word 256} {nodes : Vector Node 511} (htree : TreeShape freq nodes) (fuel : Nat)
    {n m : NodeIdx} {c path : List Bool} {stack stack' : List (NodeIdx × List Bool)} (htop : PathOk nodes (n, c))
    (hstack : ∀ e ∈ stack, PathOk nodes e) (hd : descend nodes fuel n c stack = some (m, path, stack')) :
    ∀ e ∈ stack', PathOk nodes e := by
  induction fuel generalizing n c stack with
  | zero =>
    cases hn : nodes[n].leaf with
    | true =>
      rw [descend_leaf hn] at hd
      cases hd
      exact hstack
    | false =>
      rw [descend_tooDeep hn] at hd
      cases hd
  | succ fuel ih =>
    cases hn : nodes[n].leaf with
    | true =>
      rw [descend_leaf hn] at hd
      cases hd
      exact hstack
    | false =>
      rw [descend_internal hn] at hd
      obtain ⟨hl, hr⟩ := htree.internal hn
      refine ih (htop.child false hl) ?_ hd
      exact List.forall_mem_cons.2 ⟨htop.child true hr, hstack⟩

/-- The walk stands on an internal node (R34, R196). -/
def OnTree (s : State) : Prop := s.nodes[s.walk].leaf = false

/-- After a bit the walk stands on an internal child, or on ROOT after a symbol. -/
theorem onTree_walkOn {s : State} (bit : Bool) (hroot : s.nodes[s.root].leaf = false) : OnTree (walkOn bit s) := by
  rcases walkOn_cases bit s with ⟨-, h⟩ | ⟨hn, h⟩ <;> rw [h]
  · exact hroot
  · exact hn

theorem walkOn_flags {s : State} (bit : Bool) (h : FlagsTrue s) (hv : s.treeValid = true) :
    FlagsTrue (walkOn bit s) ∧ (walkOn bit s).treeValid = true := by
  rcases walkOn_cases bit s with ⟨-, hw⟩ | ⟨-, hw⟩ <;> rw [hw] <;> exact ⟨h, hv⟩

/-- While the flags are true and TREE_VALID is set, ROOT is an internal node. -/
theorem FlagsTrue.root_internal {s : State} (h : FlagsTrue s) (hv : s.treeValid = true) :
    s.nodes[s.root].leaf = false := by
  obtain ⟨htree, -⟩ := h
  obtain ⟨hroot, hshape⟩ := htree hv
  exact (congrArg (fun n : NodeIdx => s.nodes[n].leaf) hroot).trans hshape.root_internal

theorem treeInv_walkByteDone {s : State} {held : Option Byte} (h : FlagsTrue s) (hv : s.treeValid = true)
    (hon : OnTree s) : TreeInv (walkByteDone held s) := by
  cases held with
  | some b => exact ⟨h.1, h.2, hv, hon⟩
  | none => exact treeInv_finishElement h

theorem treeInv_packNext {s : State} (h : FlagsTrue s) (hc : s.codesValid = true) : TreeInv (packNext s) := by
  unfold packNext
  split
  · exact ⟨h.1, h.2, hc⟩
  · exact ⟨h.1, h.2, hc⟩

/-- READ_HEADER writes FREQ only with the flags cleared (R191, R63). -/
theorem storeCounter_cleared {s : State} (n : Nat) (v : Word) (h : FlagsTrue s) (hn : 0 < n → s.treeValid = false) :
    (storeCounter n v (consume (clearAtFirst n s))).treeValid = false ∧
      (storeCounter n v (consume (clearAtFirst n s))).codesValid = false := by
  have hsame (u : State) :
      (storeCounter n v u).treeValid = u.treeValid ∧ (storeCounter n v u).codesValid = u.codesValid := by
    unfold storeCounter
    split <;> exact ⟨rfl, rfl⟩
  obtain ⟨ht, hc⟩ := hsame (consume (clearAtFirst n s))
  rw [ht, hc]
  by_cases h0 : n = 0
  · subst h0
    exact ⟨rfl, rfl⟩
  · rw [clearAtFirst_later h0]
    have hv := hn (Nat.pos_of_ne_zero h0)
    exact ⟨hv, h.codes_cleared hv⟩

theorem FlagsTrue.clearAtFirst {s : State} (n : Nat) (h : FlagsTrue s) : FlagsTrue (clearAtFirst n s) := by
  unfold Machine.clearAtFirst
  split
  · exact .of_cleared rfl rfl
  · exact h

theorem treeInv_countRead {s : State} (hp : s.phase = .countRead) (hv : s.treeValid = false)
    (hc : s.codesValid = false) : TreeInv s := by
  have hflags := FlagsTrue.of_cleared hv hc
  refine ⟨hflags.1, hflags.2, ?_⟩
  rw [hp]
  exact hv

theorem forestOf_goTo (p : Phase) (s : State) : forestOf (goTo p s) = forestOf s := rfl

theorem treeInv_buildInit (s : State) : TreeInv (goTo .buildMerge (buildInit s)) := by
  have hv : (goTo .buildMerge (buildInit s)).treeValid = false := by simp only [goTo, buildInit, clearTreeValid]
  have hc : (goTo .buildMerge (buildInit s)).codesValid = false := by simp only [goTo, buildInit, clearTreeValid]
  have hfreq : (goTo .buildMerge (buildInit s)).freq = s.freq := by simp only [goTo, buildInit, clearTreeValid]
  have hflags := FlagsTrue.of_cleared hv hc
  have hshape : ForestShape (goTo .buildMerge (buildInit s)).freq (forestOf (goTo .buildMerge (buildInit s))) := by
    rw [hfreq, forestOf_goTo, forestOf_buildInit]
    exact forestShape_leaves (withLeaves_leaf s.freq s.nodes)
  exact ⟨hflags.1, hflags.2, hv, hshape⟩

theorem treeInv_merge {s : State} (hp : s.phase = .buildMerge) (hv : s.treeValid = false) (hc : s.codesValid = false)
    (h : ForestShape s.freq (forestOf s)) (hm : canMerge (forestOf s) = true) :
    TreeInv (withForest (mergeOnce (forestOf s)) s) := by
  have h2 : 2 ≤ (forestOf s).q.length := by
    simp only [canMerge, Bool.and_eq_true, decide_eq_true_eq] at hm
    exact hm.1
  have hflags : FlagsTrue (withForest (mergeOnce (forestOf s)) s) := .of_cleared hv hc
  refine ⟨hflags.1, hflags.2, ?_⟩
  rw [withForest_phase, hp]
  exact ⟨hv, h.mergeOnce h2⟩

/-- BUILD_TREE's end leaves the tree of the present FREQ (R146). -/
theorem treeInv_buildFinish {s : State} (h : ForestShape s.freq (forestOf s)) (hc : s.codesValid = false)
    (hq : s.q.length = 1) : TreeInv (buildFinish s) := by
  obtain ⟨htop, htree⟩ := h.finished hq
  have hroot : s.q.headD s.root = 510 := by
    rw [show s.q = [510] from htop]
    rfl
  exact treeInv_finishElement ⟨fun _ => ⟨hroot, htree⟩, fun hv => absurd (hc.symm.trans hv) Bool.false_ne_true⟩

theorem MicroStep.treeInv {s t : State} (hm : MicroStep s t) (h : TreeInv s) : TreeInv t := by
  have hflags := h.flagsTrue
  cases hm with
  | missingFlag | countFull | lastBitsAbsent | lastBitsRange | walkOffTree | mismatch =>
    exact treeInv_abort _ _ hflags
  | nop | rewind | countEnd | headerLast | packEnd | packFlush | lastBits | walkEmpty | verifyEnd =>
    exact treeInv_finishElement hflags
  | countClear => exact ⟨fun hv => absurd hv Bool.false_ne_true, fun hc => absurd hc Bool.false_ne_true, rfl⟩
  | countByte hp =>
    simp only [TreeInv, hp] at h
    obtain ⟨-, -, hv⟩ := h
    exact treeInv_countRead hp hv (hflags.codes_cleared hv)
  | buildInit hp => exact treeInv_buildInit s
  | buildEnd hp hq =>
    simp only [TreeInv, hp] at h
    obtain ⟨-, -, hv, hshape⟩ := h
    exact treeInv_buildFinish hshape (hflags.codes_cleared hv) hq
  | merge hp hq hm =>
    simp only [TreeInv, hp] at h
    obtain ⟨-, -, hv, hshape⟩ := h
    exact treeInv_merge hp hv (hflags.codes_cleared hv) hshape hm
  | deriveStart hp hv =>
    obtain ⟨hroot, -⟩ := hflags.1 hv
    refine ⟨hflags.1, hflags.2, hv, fun e he => ?_⟩
    rw [List.mem_singleton.1 he]
    exact ⟨hroot.symm, by rw [hroot]; decide⟩
  | deriveEnd hp =>
    simp only [TreeInv, hp] at h
    obtain ⟨htree, -, hv, -⟩ := h
    exact treeInv_finishElement ⟨htree, fun _ => hv⟩
  | deriveLeaf hp hd =>
    simp only [TreeInv, hp] at h
    obtain ⟨htree, hcodes, hv, hstack⟩ := h
    obtain ⟨-, hshape⟩ := htree hv
    obtain ⟨htop, hrest⟩ := List.forall_mem_cons.1 hstack
    exact ⟨htree, hcodes, hv, pathOk_descend hshape _ htop hrest hd⟩
  | headerStart hp hv => exact ⟨hflags.1, hflags.2, hv⟩
  | headerNext hp | headerEnd hp =>
    simp only [TreeInv, hp] at h
    exact h
  | headerSum hp =>
    simp only [TreeInv, hp] at h
    simp only [TreeInv, goTo, Machine.headerSum]
    exact h
  | packStart hp hv => exact ⟨hflags.1, hflags.2, hv⟩
  | packPartial hp =>
    simp only [TreeInv, hp] at h
    exact h
  | packByte hp | packEmit hp =>
    simp only [TreeInv, hp] at h
    obtain ⟨-, -, hc⟩ := h
    exact treeInv_packNext hflags hc
  | headerTruncated => exact treeInv_abort _ _ (hflags.clearAtFirst _)
  | @counterNext n v v' u b rest hp =>
    simp only [TreeInv, hp] at h
    obtain ⟨-, -, hn⟩ := h
    obtain ⟨hv, hc⟩ := storeCounter_cleared n v' hflags hn
    have hflags' := FlagsTrue.of_cleared hv hc
    exact ⟨hflags'.1, hflags'.2, fun _ => hv⟩
  | @counterEnd n v v' b rest hp =>
    simp only [TreeInv, hp] at h
    obtain ⟨-, -, hn⟩ := h
    obtain ⟨hv, hc⟩ := storeCounter_cleared n v' hflags hn
    have hflags' := FlagsTrue.of_cleared hv hc
    exact ⟨hflags'.1, hflags'.2, hv⟩
  | walkStart hp hv => exact ⟨hflags.1, hflags.2, hv⟩
  | walkClear hp =>
    simp only [TreeInv, hp] at h
    obtain ⟨htree, hcodes, hv⟩ := h
    exact ⟨htree, hcodes, hv, hflags.root_internal hv⟩
  | walkEnd hp | walkFirst hp | walkNext hp =>
    simp only [TreeInv, hp] at h
    exact h
  | walkBit hp =>
    simp only [TreeInv, hp] at h
    obtain ⟨-, -, hv, -⟩ := h
    obtain ⟨hflags', hv'⟩ := walkOn_flags _ hflags hv
    exact ⟨hflags'.1, hflags'.2, hv', onTree_walkOn _ (hflags.root_internal hv)⟩
  | walkLastBit hp =>
    simp only [TreeInv, hp] at h
    obtain ⟨-, -, hv, -⟩ := h
    obtain ⟨hflags', hv'⟩ := walkOn_flags _ hflags hv
    exact treeInv_walkByteDone hflags' hv' (onTree_walkOn _ (hflags.root_internal hv))
  | walkNoBit hp =>
    simp only [TreeInv, hp] at h
    obtain ⟨-, -, hv, hon⟩ := h
    exact treeInv_walkByteDone hflags hv hon
  | verifyStart | verifyNext => exact ⟨hflags.1, hflags.2, trivial⟩

/-! ### The step -/

/-- The two invariants together. -/
def Invariant (s : State) : Prop := ControlInv s ∧ TreeInv s

/-- While idle the flags are all the table invariant says. -/
theorem ControlInv.treeInv_of_idle {s : State} (h : ControlInv s) (hb : s.busy = false) (hflags : FlagsTrue s) :
    TreeInv s := treeInv_start (e := .reset) (h.idle_phase hb) hflags

theorem invariant_closed : MoveClosed Invariant where
  record s script reads draws h := ⟨controlInv_closed.record s script reads draws h.1, h.2⟩
  drop s h := ⟨controlInv_closed.drop s h.1, h.2⟩
  status s v h := ⟨controlInv_closed.status s v h.1, h.2⟩
  register s ie lastBits freqIdx codeIdx nodeIdx hb h :=
    ⟨controlInv_closed.register s ie lastBits freqIdx codeIdx nodeIdx hb h.1, h.2⟩
  counter s freq hb h :=
    have hc := controlInv_closed.counter s freq hb h.1
    ⟨hc, hc.treeInv_of_idle hb (.of_cleared rfl rfl)⟩
  attach s bytes hb h := ⟨controlInv_closed.attach s bytes hb h.1, h.2⟩
  reset s h := ⟨controlInv_closed.reset s h.1, treeInv_start (e := .reset) rfl (.of_cleared rfl rfl)⟩
  illegal s w hb h := ⟨controlInv_closed.illegal s w hb h.1, h.2⟩
  accept s i hi hb h := ⟨controlInv_closed.accept s i hi hb h.1, treeInv_start (accept_phase i s) h.2.flagsTrue⟩
  micro s t hb hm h := ⟨controlInv_closed.micro s t hb hm h.1, hm.treeInv h.2⟩

/-- Settles O56: with the sequencer invariant beside it the table invariant is kept by every move and micro-step. -/
theorem stepKeepsTreeInv : Obligations.StepKeepsTreeInv :=
  fun _ _ hc ht hs => (invariant_closed.step ⟨hc, ht⟩ hs).2

/-- Settles O54: reset leaves an idle position, empty hidden state and cleared flags. -/
theorem resetKeepsInvariants : Obligations.ResetKeepsInvariants := by
  have hc : ControlInv State.reset :=
    controlInv_of_idle rfl ⟨rfl, rfl, rfl, rfl⟩ ⟨rfl, rfl, rfl⟩ (fun h => Bool.false_ne_true h.1)
      (fun _ => ⟨rfl, rfl⟩) (Nat.zero_le _)
  exact ⟨hc, hc.treeInv_of_idle rfl (.of_cleared rfl rfl)⟩

end Sys2Proof.Machine
end

section
/-! SUPPORT. The streams and the host's moves (20_memory.md R70 to R94): SINK only grows, SRC changes by an attach
alone, and what a step does at each kind of move of the script. -/

namespace Sys2Proof.Machine

/-! ### SINK (R70, R75) -/

theorem Emits.sink_prefix {s t : State} (h : Emits s t) : s.sink <+: t.sink := by
  obtain ⟨bytes, hs, -⟩ := h
  exact ⟨bytes, hs.symm⟩

/-- The first bytes of SINK are `emitted` (20 R70). -/
def SinkExtends (emitted : List Byte) (s : State) : Prop := emitted <+: s.sink

/-- A micro-step appends what it emits; no move of the host writes SINK, reset included. -/
theorem sinkExtends_closed (emitted : List Byte) : MoveClosed (SinkExtends emitted) where
  record _ _ _ _ h := h
  drop _ h := h
  status _ _ h := h
  register _ _ _ _ _ _ _ h := h
  counter _ _ _ h := h
  attach _ _ _ h := h
  reset _ h := h
  illegal _ _ _ h := h
  accept _ _ _ _ h := h
  micro _ _ _ hm h := List.IsPrefix.trans h (emits_outcome hm.outcome).sink_prefix

/-- Settles O58: the bytes of SINK before the step stay its first bytes at every move and micro-step. -/
theorem sinkOnlyGrows : Obligations.SinkOnlyGrows :=
  fun s _ h => (sinkExtends_closed s.sink).step (List.prefix_refl s.sink) h

/-! ### The host's side along the micro-steps -/

theorem hostSide_goTo (p : Phase) (s : State) : hostSide (goTo p s) = hostSide s := rfl

theorem hostSide_headerSum (s : State) : hostSide (headerSum s) = hostSide s := by
  simp only [hostSide, headerSum]

theorem hostSide_clearAtFirst (n : Nat) (s : State) : hostSide (clearAtFirst n s) = hostSide s :=
  hostSide_ite rfl rfl

theorem hostSide_counterStored (n : Nat) (v : Word) (s : State) :
    hostSide (storeCounter n v (consume (clearAtFirst n s))) = hostSide s :=
  (hostSide_storeCounter n v _).trans (hostSide_clearAtFirst n s)

theorem hostSide_walkOn (bit : Bool) (s : State) : hostSide (walkOn bit s) = hostSide s := by
  rcases walkOn_cases bit s with ⟨-, h⟩ | ⟨-, h⟩ <;> rw [h] <;> rfl

theorem hostSide_walkByteDone (held : Option Byte) (s : State) : hostSide (walkByteDone held s) = hostSide s := by
  cases held with
  | some b => rfl
  | none => exact hostSide_walkFinish s

/-- No micro-step writes what belongs to the host. -/
theorem MicroStep.hostSide_eq {s t : State} (h : MicroStep s t) : hostSide t = hostSide s := by
  cases h with
  | nop | rewind | countEnd | buildEnd | deriveEnd | headerLast | packEnd | packFlush | lastBits | walkEmpty
  | verifyEnd => exact hostSide_finishElement _
  | headerSum => exact (hostSide_goTo _ _).trans (hostSide_headerSum s)
  | headerTruncated => exact hostSide_clearAtFirst _ s
  | counterNext | counterEnd => exact hostSide_counterStored _ _ s
  | walkBit => exact hostSide_walkOn _ s
  | walkLastBit => exact (hostSide_walkByteDone _ _).trans (hostSide_walkOn _ s)
  | walkNoBit => exact hostSide_walkByteDone _ s
  | _ => rfl

theorem hostSide_microStep {s t : State} (h : microStep s = .next t) : hostSide t = hostSide s := by
  rcases microStep_cases h with ⟨-, rfl⟩ | ⟨-, hm⟩
  · rfl
  · exact hm.hostSide_eq

/-! ### Command words and refused accesses (R80, R71, R94) -/

theorem runCommand_legal {w : Word} {i : Instr} (hw : decode w = .ok i) (s : State) : runCommand w s = exec i s := by
  simp only [runCommand, hw]

theorem runCommand_illegal {w : Word} {e : DecodeError} (hw : decode w = .error e) (s : State) :
    runCommand w s = .next (writeCmd w s) := by
  simp only [runCommand, hw]

theorem supportedOffset_eq_false {off : Nat} : supportedOffset off = false ↔ off % 4 ≠ 0 ∨ 256 ≤ off := by
  simp [supportedOffset, imp_iff_not_or]

theorem hostRead_unsupported {off : Nat} (h : supportedOffset off = false) (s : State) :
    hostRead off s = .refused .unsupportedAccess := by
  rw [hostRead, if_neg (ne_true_of_eq_false h)]

theorem hostWrite_unsupported {off : Nat} (h : supportedOffset off = false) (v : Word) (s : State) :
    hostWrite off v s = .refused .unsupportedAccess := by
  rw [hostWrite, if_neg (ne_true_of_eq_false h)]

theorem hostAttach_busy {s : State} (hb : s.busy = true) (bytes : List Byte) :
    hostAttach bytes s = .refused .attachWhileBusy := if_pos hb

theorem hostAttach_idle {s : State} (hb : s.busy = false) (bytes : List Byte) :
    hostAttach bytes s = .next { s with src := bytes, inPos := 0 } := if_neg (ne_true_of_eq_false hb)

/-! ### SRC (R70, R92) -/

theorem whileIdle_src {f : State → State} {s : State} (hf : (f s).src = s.src) : (whileIdle f s).src = s.src := by
  unfold whileIdle
  split
  · rfl
  · exact hf

theorem writeCmd_src (w : Word) (s : State) : (writeCmd w s).src = s.src := by
  unfold writeCmd
  split
  · rfl
  · exact whileIdle_src (f := accept _) rfl
  · exact whileIdle_src (f := illegalCommand w) rfl

theorem writeReg_src (r : Reg) (v : Word) (s : State) : (writeReg r v s).src = s.src := by
  cases r with
  | cmd => exact writeCmd_src v s
  | ctrl | lastBits | freqIdx | freqData | codeIdx | nodeIdx => exact whileIdle_src rfl
  | _ => rfl

theorem hostRead_src {off : Nat} {s t : State} (h : hostRead off s = .next t) : t.src = s.src := by
  obtain ⟨reads, draws, rfl⟩ := hostRead_state h
  rfl

theorem hostWrite_src {off : Nat} {v : Word} {s t : State} (h : hostWrite off v s = .next t) : t.src = s.src := by
  unfold hostWrite at h
  split at h
  · cases h
    split
    · exact writeReg_src _ v s
    · rfl
  · cases h

theorem microStep_src {s t : State} (h : microStep s = .next t) : t.src = s.src :=
  congrArg HostSide.src (hostSide_microStep h)

theorem exec_src {i : Instr} {s t : State} (h : exec i s = .next t) : t.src = s.src := by
  by_cases hi : i = .reset
  · subst hi
    cases h
    rfl
  · exact congrArg HostSide.src (hostSide_exec hi h)

theorem runCommand_src {w : Word} {s t : State} (h : runCommand w s = .next t) : t.src = s.src := by
  cases hw : decode w with
  | ok i =>
    rw [runCommand_legal hw] at h
    exact exec_src h
  | error e =>
    rw [runCommand_illegal hw] at h
    cases h
    exact writeCmd_src w s

theorem hostWait_src {s t : State} (h : hostWait s = .next t) : t.src = s.src := by
  unfold hostWait at h
  split at h
  · obtain ⟨u, hu, ht⟩ := andThen_eq_next.1 h
    cases ht
    exact (microStep_src hu : u.src = s.src)
  · exact hostRead_src h

/-- Of the moves of the script only the attach writes SRC. -/
theorem hostMove_src {m : HostMove} (hm : ∀ bytes, m ≠ .attach bytes) {s t : State} (h : hostMove m s = .next t) :
    t.src = s.src := by
  cases m with
  | read off => exact hostRead_src h
  | write off v => exact hostWrite_src h
  | attach bytes => exact absurd rfl (hm bytes)
  | hardReset =>
    cases h
    rfl
  | wait => exact hostWait_src h
  | turn => exact microStep_src h
  | command w => exact runCommand_src h

/-- Settles O59: a step is a micro-step or the next move, and of these only an attach writes SRC. -/
theorem sourceChangesOnlyByAttach : Obligations.SourceChangesOnlyByAttach := by
  intro s t h hattach
  rcases step_cases s with ⟨-, heq⟩ | ⟨m, rest, hscript, heq⟩ <;> rw [heq] at h
  · exact microStep_src h
  · have hm (bytes : List Byte) : m ≠ .attach bytes := by
      rintro rfl
      exact hattach bytes (by rw [hscript, List.head?_cons])
    exact (hostMove_src hm h : t.src = { s with script := rest }.src)

/-! ### The step at a command word, at a turn, and outside the rules -/

/-- Settles O4: the command move is `runCommand`, which runs a legal word and writes any other to CMD. -/
theorem stepRunsDecodedCommand : Obligations.StepRunsDecodedCommand := by
  intro s w rest hscript
  rw [step_move hscript]
  exact ⟨fun _ hw => runCommand_legal hw _, fun _ hw => runCommand_illegal hw _⟩

/-- Settles O6: the empty script and a turn both give the sequencer its micro-step. -/
theorem sequencerTakesTurns : Obligations.SequencerTakesTurns :=
  fun _ => ⟨step_noMove, fun _ hscript => step_move hscript, microStep_idle, microStep_busy⟩

/-- Settles O50: the offset check guards both accesses, and BUSY guards the attach. -/
theorem hostMovesOutsideTheRules : Obligations.HostMovesOutsideTheRules := by
  intro s off v bytes
  refine ⟨fun hoff => ?_, fun hb => hostAttach_busy hb bytes, fun hb => hostAttach_idle hb bytes⟩
  have hunsupported := supportedOffset_eq_false.2 hoff
  exact ⟨hostRead_unsupported hunsupported s, hostWrite_unsupported hunsupported v s⟩

end Sys2Proof.Machine
end

section
/-! SUPPORT. Command words (30_encoding.md Part A): the opcode map of R102 against the reserved ranges of R104, and the
macros of R106. -/

namespace Sys2Proof.Machine

/-! ### The opcode map (R100 to R104) -/

theorem opcodeMap_opcodeOf : ∀ row ∈ opcodeMap, row.1 = opcodeOf row.2 := by decide

/-- The map gives an opcode to no command but the one R100 puts together from GRP and FN. -/
theorem opcodeOf_of_instrOfOpcode {op : Byte} {i : Instr} (h : instrOfOpcode op = some i) : opcodeOf i = op := by
  obtain ⟨row, hfind, rfl⟩ := Option.map_eq_some_iff.1 h
  rw [← opcodeMap_opcodeOf row (List.mem_of_find?_eq_some hfind)]
  exact eq_of_beq (List.find?_some hfind :)

/-- The reserved ranges of R104 are the gaps of the opcode map. -/
theorem instrOfOpcode_isSome (op : Byte) : (instrOfOpcode op).isSome = true ↔ opcodeReserved op = false := by
  have hrow : (instrOfOpcode op).isSome = true ↔ op.toNat ∈ opcodeMap.map (·.1.toNat) := by
    simp only [instrOfOpcode, Option.isSome_map, List.find?_isSome, beq_iff_eq, List.mem_map, BitVec.toNat_inj]
  have hopcodes : opcodeMap.map (·.1.toNat) =
      [0x00, 0x01, 0x02, 0x10, 0x11, 0x12, 0x20, 0x21, 0x2F, 0x30, 0x31, 0x32, 0x3F] := rfl
  rw [hrow, hopcodes]
  simp only [List.mem_cons, List.not_mem_nil, opcodeReserved, Bool.or_eq_false_iff, Bool.and_eq_false_iff,
    decide_eq_false_iff_not, or_false]
  omega

theorem decode_eq_ok_iff {w : Word} {i : Instr} :
    decode w = .ok i ↔ reservedFieldZero w = true ∧ instrOfOpcode (w.setWidth 8) = some i := by
  unfold decode
  split
  next hrsv => exact ⟨nofun, fun h => absurd (eq_of_beq h.1) hrsv⟩
  next hrsv =>
    have hzero : reservedFieldZero w = true := beq_iff_eq.2 (not_not.1 hrsv)
    cases instrOfOpcode (w.setWidth 8) <;> simp [hzero]

/-- A word is its RSV field over its opcode (R100). -/
theorem word_eq_append (w : Word) : w = w.extractLsb' 8 24 ++ w.setWidth 8 := by
  refine BitVec.eq_of_getLsbD_eq fun i hi => ?_
  rw [BitVec.getLsbD_append]
  by_cases hlow : i < 8
  · simp [hlow]
  · simp [hlow, show i - 8 < 24 by omega, show 8 + (i - 8) = i by omega]

theorem encode_of_decode {w : Word} {i : Instr} (h : decode w = .ok i) : encode i = w := by
  obtain ⟨hrsv, hop⟩ := decode_eq_ok_iff.1 h
  rw [encode, opcodeOf_of_instrOfOpcode hop, ← eq_of_beq hrsv]
  exact (word_eq_append w).symm

/-- Settles O3: RSV is checked alike on both sides, and an opcode is in the map just when no range of R104 holds it. -/
theorem decodeAcceptsExactlyLegalWords : Obligations.DecodeAcceptsExactlyLegalWords := by
  refine fun w => ⟨?_, fun i => encode_of_decode⟩
  calc wordWellFormed w = true
      ↔ reservedFieldZero w = true ∧ opcodeReserved (w.setWidth 8) = false := by simp [wordWellFormed]
    _ ↔ reservedFieldZero w = true ∧ ∃ i, instrOfOpcode (w.setWidth 8) = some i := by
        rw [← instrOfOpcode_isSome, Option.isSome_iff_exists]
    _ ↔ ∃ i, decode w = .ok i := by simp only [decode_eq_ok_iff, exists_and_left]

/-- Settles O2: GRP and FN of each command give its row of the opcode map back. -/
theorem decodeOfEncode : Obligations.DecodeOfEncode := decode_encode

/-- Settles O1: the 13 words are the rows of R102. -/
theorem opcodeMapDecodes : Obligations.OpcodeMapDecodes := by
  unfold Obligations.OpcodeMapDecodes
  decide

/-! ### The macros (R106) -/

/-- Settles O52: neither command is RESET, and the micro-steps run the elements of any other command to its end. -/
theorem microStepsRunMacros : Obligations.MicroStepsRunMacros := by
  intro s i hb hi
  have hreset : i ≠ .reset := fun h => absurd (h ▸ hi) (by decide)
  obtain ⟨⟨k, hk⟩, hhalt⟩ := exec_reached hreset hb
  exact ⟨k, microSteps_halted hk hhalt⟩

end Sys2Proof.Machine
end

section
/-! SUPPORT. The codes of DERIVE_CODES (30_encoding.md R113; 41_tree_builder.md R149, R150): each symbol's code is a
path from ROOT to its leaf, and no such path goes through another leaf. -/

namespace Sys2Proof.Machine

/-! ### A path stored as a code (R30, R149) -/

theorem bitsToNat_concat (c : List Bool) (b : Bool) : bitsToNat (c ++ [b]) = Nat.bit b (bitsToNat c) := by
  rw [bitsToNat, List.foldl_append, Nat.bit_val]
  rfl

/-- The last bit of a path is the least significant one. -/
theorem testBit_bitsToNat (c : List Bool) (j : Nat) : (bitsToNat c).testBit j = c.reverse[j]?.getD false := by
  induction c using List.reverseRecOn generalizing j with
  | nil => simp [bitsToNat]
  | append_singleton c b ih =>
    rw [bitsToNat_concat, List.reverse_concat]
    cases j with
    | zero => simp
    | succ j => rw [Nat.testBit_bit_succ, ih, List.getElem?_cons_succ]

/-- A path of at most 255 bits is read back from the code table as it was stored. -/
theorem codeBits_codeOfPath {path : List Bool} (hpath : path.length ≤ Config.maxCodeLen) :
    codeBits (codeOfPath path) = path := by
  have hlen : (codeOfPath path).len.toNat = path.length := Nat.mod_eq_of_lt (Nat.lt_succ_of_le hpath)
  refine List.ext_getElem (by rw [codeBits_length, hlen]) fun i _ hi => ?_
  have hbit : (bitsToNat path).testBit (path.length - 1 - i) = path[i] := by
    rw [testBit_bitsToNat, List.getElem?_reverse (by omega), show path.length - 1 - (path.length - 1 - i) = i by omega,
      List.getElem?_eq_getElem hi, Option.getD_some]
  have h256 : path.length - 1 - i < 256 := Nat.lt_of_le_of_lt (by omega) (Nat.lt_succ_of_le hpath)
  simp only [codeBits, hlen, List.getElem_map, List.getElem_range]
  rw [codeOfPath, BitVec.getLsbD_ofNat, hbit, decide_eq_true h256, Bool.true_and]

/-! ### Paths to a leaf -/

/-- The path leads from a node over internal nodes to the leaf `m` (R113). -/
def LeafPath (nodes : Vector Node 511) (m : NodeIdx) : NodeIdx → List Bool → Prop
  | n, [] => n = m ∧ nodes[n].leaf = true
  | n, bit :: path => nodes[n].leaf = false ∧ LeafPath nodes m (childOf nodes n bit) path

section
variable {nodes : Vector Node 511} {m n : NodeIdx}

theorem LeafPath.follow_eq {path : List Bool} (h : LeafPath nodes m n path) : follow nodes n path = m := by
  induction path generalizing n with
  | nil => exact h.1
  | cons bit path ih => exact ih h.2

/-- A path to a leaf cannot be prolonged: no leaf's path begins with another leaf's. -/
theorem LeafPath.eq_of_prefix {m' : NodeIdx} {path path' : List Bool} (h : LeafPath nodes m n path)
    (h' : LeafPath nodes m' n path') (hpre : path <+: path') : m = m' := by
  induction path generalizing n path' with
  | nil =>
    obtain ⟨rfl, hleaf⟩ := h
    cases path' with
    | nil => exact h'.1
    | cons bit path' => exact absurd (hleaf.symm.trans h'.1) (by decide)
  | cons bit path ih =>
    obtain ⟨rest, rfl⟩ := hpre
    exact ih h.2 h'.2 (List.prefix_append path rest)

/-- From a leaf the empty path leads to it, and no other path to any leaf. -/
theorem leafPath_leaf (hn : nodes[n].leaf = true) : (∃ path, LeafPath nodes m n path) ↔ n = m := by
  constructor
  · rintro ⟨_ | ⟨bit, path⟩, h⟩
    · exact h.1
    · exact absurd (hn.symm.trans h.1) (by decide)
  · rintro rfl
    exact ⟨[], rfl, hn⟩

/-- From an internal node a path to a leaf goes through one of its children. -/
theorem LeafPath.split {path : List Bool} (hn : nodes[n].leaf = false) (h : LeafPath nodes m n path) :
    (∃ path', LeafPath nodes m nodes[n].left path') ∨ ∃ path', LeafPath nodes m nodes[n].right path' := by
  rcases path with _ | ⟨_ | _, path⟩
  · exact absurd (hn.symm.trans h.2) Bool.false_ne_true
  · exact .inl ⟨path, h.2⟩
  · exact .inr ⟨path, h.2⟩

end

/-- Every node of a full tree is ROOT or has a parent, so a path from it to a leaf is the end of one from ROOT
(R146 (c)). -/
theorem exists_leafPath_root {freq : Vector Word 256} {nodes : Vector Node 511} (h : TreeShape freq nodes)
    {m n : NodeIdx} {path : List Bool} (hpath : LeafPath nodes m n path) : ∃ path, LeafPath nodes m 510 path := by
  have ⟨hbuilt, _, hparent⟩ := h
  by_cases hn : n.val < 510
  · obtain ⟨p, hp⟩ := (hparent n).1 hn
    have hlt : n.val < p.val := hbuilt.child_lt hp
    obtain ⟨h256, h511, hchild⟩ := hp
    obtain ⟨hinternal, -⟩ := hbuilt.2 p h256 h511
    obtain ⟨bit, rfl⟩ : ∃ bit, childOf nodes p bit = n := hchild.elim (⟨false, ·⟩) (⟨true, ·⟩)
    exact exists_leafPath_root h (n := p) (path := bit :: path) ⟨hinternal, hpath⟩
  · obtain rfl : n = 510 := Fin.ext (by have := n.isLt; omega)
    exact ⟨path, hpath⟩
termination_by 510 - n.val

/-! ### What a visit writes (R149) -/

section
variable {nodes : Vector Node 511} {sym : Byte} {fuel : Nat} {n : NodeIdx} {c : List Bool} {t t₁ t' : Vector Code 256}

/-- Between the code tables `t` and `t'` the visit of `n` has given `sym` a path to its leaf, after the path `c` to `n`;
or no path leads from `n` to that leaf and the code of `sym` is as it was. -/
def VisitCodes (nodes : Vector Node 511) (sym : Byte) (fuel : Nat) (n : NodeIdx) (c : List Bool)
    (t t' : Vector Code 256) : Prop :=
  (∃ path, LeafPath nodes (leafOf sym) n path ∧ path.length ≤ fuel ∧ getAt t' sym = codeOfPath (c ++ path)) ∨
  (¬∃ path, LeafPath nodes (leafOf sym) n path) ∧ getAt t' sym = getAt t sym

theorem visitCodes_leaf (hn : nodes[n].leaf = true) (h256 : n.val < 256) :
    VisitCodes nodes sym fuel n c t (setAt t (symbolOf n) (codeOfPath c)) := by
  have hleaf : n = leafOf (symbolOf n) := (leafOf_symbolOf h256).symm
  by_cases hsym : symbolOf n = sym
  · subst hsym
    exact .inl ⟨[], ⟨hleaf, hn⟩, Nat.zero_le _, by simp⟩
  · refine .inr ⟨fun hpath => hsym ?_, by simp [hsym]⟩
    exact leafOf_inj (hleaf.symm.trans ((leafPath_leaf hn).1 hpath))

theorem visitCodes_internal (hn : nodes[n].leaf = false)
    (hl : VisitCodes nodes sym fuel nodes[n].left (c ++ [false]) t t₁)
    (hr : VisitCodes nodes sym fuel nodes[n].right (c ++ [true]) t₁ t') :
    VisitCodes nodes sym (fuel + 1) n c t t' := by
  rcases hr with ⟨path, hpath, hlen, hcode⟩ | ⟨hno, hsame⟩
  · exact .inl ⟨true :: path, ⟨hn, hpath⟩, Nat.succ_le_succ hlen, by simpa using hcode⟩
  · rcases hl with ⟨path, hpath, hlen, hcode⟩ | ⟨hno', hsame'⟩
    · exact .inl ⟨false :: path, ⟨hn, hpath⟩, Nat.succ_le_succ hlen, by simpa [hsame] using hcode⟩
    · exact .inr ⟨fun ⟨_, hpath⟩ => (hpath.split hn).elim hno' hno, hsame.trans hsame'⟩

/-- `visit` gives a code to every symbol whose leaf is under the visited node, and to no other. -/
theorem visit_visitCodes (hindex : ∀ n : NodeIdx, nodes[n].leaf = true → n.val < 256) {fuel : Nat} {n : NodeIdx}
    {c : List Bool} {t t' : Vector Code 256} (h : visit nodes fuel n c t = some t') :
    VisitCodes nodes sym fuel n c t t' := by
  cases hn : nodes[n].leaf with
  | true =>
    rw [visit_leaf hn] at h
    cases h
    exact visitCodes_leaf hn (hindex n hn)
  | false =>
    cases fuel with
    | zero =>
      rw [visit_tooDeep hn] at h
      cases h
    | succ fuel =>
      rw [visit_internal hn] at h
      obtain ⟨t₁, hl, hr⟩ := Option.bind_eq_some_iff.1 h
      exact visitCodes_internal hn (visit_visitCodes hindex hl) (visit_visitCodes hindex hr)

end

/-! ### The codes of a tree (R113, R150) -/

theorem BuiltUpTo.lt_of_leaf {freq : Vector Word 256} {nodes : Vector Node 511} (h : BuiltUpTo freq nodes 511)
    (n : NodeIdx) (hn : nodes[n].leaf = true) : n.val < 256 := by
  by_contra hge
  obtain ⟨hinternal, -⟩ := h.2 n (Nat.le_of_not_lt hge) n.isLt
  exact Bool.false_ne_true (hinternal.symm.trans hn)

/-- On a full tree the code of every symbol is a path from ROOT to the symbol's leaf. -/
theorem leafPath_codeBits {freq : Vector Word 256} {nodes : Vector Node 511} {t t' : Vector Code 256}
    (htree : TreeShape freq nodes) (h : visit nodes Config.maxCodeLen 510 [] t = some t') (sym : Byte) :
    LeafPath nodes (leafOf sym) 510 (codeBits (getAt t' sym)) := by
  rcases visit_visitCodes (sym := sym) htree.1.lt_of_leaf h with ⟨path, hpath, hlen, hcode⟩ | ⟨hno, -⟩
  · rw [hcode, List.nil_append, codeBits_codeOfPath hlen]
    exact hpath
  · exact absurd (exists_leafPath_root htree (path := []) ⟨rfl, (htree.1.1 sym).1⟩) hno

theorem deriveFinish_codes (s : State) : (deriveFinish s).codes = s.codes := finishElement_codes _

/-- DERIVE_CODES leaves in LEN and VAL what its visit of the whole tree writes. -/
theorem visit_of_deriveBody {s t : State} (hv : s.treeValid = true) (h : deriveBody s = .next t) :
    visit s.nodes Config.maxCodeLen s.root [] s.codes = some t.codes := by
  rw [deriveBody, hv, require_set] at h
  split at h
  next codes hvisit =>
    cases h
    rw [deriveFinish_codes]
    exact hvisit
  next => cases h

/-- Settles O22: every code is a path from ROOT to its symbol's leaf, and no path goes on beyond a leaf. -/
theorem codesArePrefixFree : Obligations.CodesArePrefixFree := by
  intro s t hb hv hroot htree h a b hne hpre
  have hbody : exec .deriveCodes s = deriveBody (accept .deriveCodes s) :=
    (issue_idle hb .deriveCodes [deriveBody]).trans (runElements_single _ _)
  have hvisit : visit s.nodes Config.maxCodeLen s.root [] s.codes = some t.codes :=
    visit_of_deriveBody (s := accept .deriveCodes s) hv (hbody.symm.trans h)
  rw [hroot] at hvisit
  have hpath := leafPath_codeBits htree hvisit
  exact hne (leafOf_inj ((hpath a).eq_of_prefix (hpath b) hpre))

end Sys2Proof.Machine
end

section
/-! SUPPORT. The primitive commands while idle, and the control commands NOP and REWIND (40_control.md): a primitive
command is its one element's run from the accepted state, and that element's end is the command's completion. -/

namespace Sys2Proof.Machine

/-! ### A primitive command while idle (30_encoding.md R106, 10_state.md R25, R41) -/

theorem exec_primitive {i : Instr} (hi : i ≠ .reset) (he : expansion i = [i]) {s : State} (hb : s.busy = false) :
    exec i s = elementBody i (accept i s) := by
  rw [exec_eq_issue hi, issue_idle hb, he, List.map_singleton, runElements_single]

/-- The one element of a primitive command ends the command, whatever its micro-steps did to the data. -/
theorem finishElement_primitive {i : Instr} (he : expansion i = [i]) {s u : State}
    (hc : control u = control (accept i s)) : finishElement u = complete u := by
  have hlater : laterElements u = [] := by
    rw [laterElements_of_control hc, laterElements_accept, he, List.tail_cons]
  exact finishElement_last hlater

/-- Completion right after acceptance (R25 after R41). -/
theorem complete_accept (i : Instr) (s : State) : complete (accept i s) = completed s := rfl

/-! ### NOP and REWIND (R130, R132) -/

theorem nopBody_accept (s : State) : nopBody (accept .nop s) = .next (completed s) := by
  have hend : finishElement (accept .nop s) = complete (accept .nop s) := finishElement_primitive rfl rfl
  rw [nopBody, hend, complete_accept]

/-- Completion does not move the input port, so it is the same before and after REWIND's own effect. -/
theorem complete_rewindInput (s : State) : complete (rewindInput s) = rewindInput (complete s) := rfl

theorem rewindBody_accept (s : State) : rewindBody (accept .rewind s) = .next (rewindInput (completed s)) := by
  have hend : finishElement (rewindInput (accept .rewind s)) = complete (rewindInput (accept .rewind s)) :=
    finishElement_primitive (i := .rewind) (s := s) rfl rfl
  rw [rewindBody, hend, complete_rewindInput, complete_accept]

/-- Settles O12: NOP's one micro-step completes the accepted state. -/
theorem nopCompletes : Obligations.NopCompletes := by
  intro s hb
  rw [exec_primitive (by decide) rfl hb]
  exact nopBody_accept s

/-- Settles O13: REWIND's one micro-step sets IN_POS to 0 and completes. -/
theorem rewindCompletes : Obligations.RewindCompletes := by
  intro s hb
  rw [exec_primitive (by decide) rfl hb]
  exact rewindBody_accept s

end Sys2Proof.Machine
end

section
/-! SUPPORT. No step faults (log 11): under the two invariants each of the model's faults is out of reach of a
micro-step, a command is made of micro-steps that keep the invariants, and the host's other moves name no fault. -/

namespace Sys2Proof.Machine

/-! ### Results without a fault -/

/-- The result is no fault. -/
def NoFault (r : Result) : Prop := ∀ f, r ≠ .fault f

theorem noFault_next (s : State) : NoFault (.next s) := fun _ h => nomatch h

theorem noFault_refused (q : Refusal) : NoFault (.refused q) := fun _ h => nomatch h

theorem NoFault.andThen {r : Result} {k : State → Result} (hr : NoFault r) (hk : ∀ t, r = .next t → NoFault (k t)) :
    NoFault (andThen r k) := by
  cases r with
  | next t => exact hk t rfl
  | fault f => exact absurd rfl (hr f)
  | refused q => exact noFault_refused q

/-- A prerequisite check raises an error or goes on, and an error is a next state (R226). -/
theorem noFault_require (flag : Bool) (missing : Word) (f : State → State) (s : State) :
    NoFault (require flag missing (fun t => .next (f t)) s) := by
  cases flag <;> exact noFault_next _

/-! ### The three faults -/

/-- A running command has a position (R23), so `noPosition` is out of reach. -/
theorem PositionOk.phase_ne_idle {s : State} (h : PositionOk s) : s.phase ≠ .idle := by
  obtain ⟨i, e, -, -, -, hphase⟩ := h
  intro hidle
  rw [hidle] at hphase
  cases hphase

/-- Q and the free nodes are 512 together (R146 (a)), so a merge finds both and `queueBroken` is out of reach. -/
theorem noFault_stepBuildMerge {s : State} (h : ForestShape s.freq (forestOf s)) : NoFault (stepBuildMerge s) := by
  obtain ⟨-, hnext, hsum, -⟩ := h
  unfold stepBuildMerge
  split
  · exact noFault_next _
  next hq =>
    change s.q.length + s.nextNode.toNat = 512 at hsum
    change s.nextNode.toNat ≤ 511 at hnext
    have h2 : 1 < s.q.length := by omega
    have hn : s.nextNode.toNat < 511 := by omega
    have hmerge : canMerge (forestOf s) = true := by simp [canMerge, forestOf, h2, hn]
    rw [if_pos hmerge]
    exact noFault_next _

/-- On a full tree a leaf is found within `n - 255` levels of node `n`, since children lie below their parent. -/
theorem descend_isSome {freq : Vector Word 256} {nodes : Vector Node 511} (htree : TreeShape freq nodes) (fuel : Nat)
    {n : NodeIdx} (c : List Bool) (stack : List (NodeIdx × List Bool)) (hn : n.val ≤ 255 + fuel) :
    ∃ found, descend nodes fuel n c stack = some found := by
  cases hleaf : nodes[n].leaf with
  | true => exact ⟨_, descend_leaf hleaf fuel c stack⟩
  | false =>
    cases fuel with
    | zero =>
      exact absurd (hleaf.symm.trans (htree.1.leaf (Nat.lt_succ_of_le hn))) Bool.false_ne_true
    | succ fuel =>
      rw [descend_internal hleaf]
      have hlt := Fin.lt_def.1 (htree.internal hleaf).1
      exact descend_isSome htree fuel _ _ (by omega)

/-- The path stack's paths are no deeper than their nodes allow (R150), so `pathTooDeep` is out of reach. -/
theorem noFault_deriveVisit {s : State} {stack : List (NodeIdx × List Bool)} (htree : TreeShape s.freq s.nodes)
    (hstack : ∀ e ∈ stack, PathOk s.nodes e) : NoFault (deriveVisit stack s) := by
  match stack with
  | [] => exact noFault_next _
  | (n, c) :: rest =>
    have hdeep : n.val + c.length ≤ 510 := (hstack (n, c) List.mem_cons_self).2
    obtain ⟨found, hfound⟩ := descend_isSome htree (255 - c.length) c rest (show n.val ≤ _ by omega)
    simp only [deriveVisit, hfound]
    exact noFault_next _

/-! ### Every step -/

theorem noFault_runningStep {s : State} (hb : s.busy = true) (h : Invariant s) : NoFault (runningStep s) := by
  obtain ⟨hctrl, htree⟩ := h
  have hpos := (hctrl.running hb).2.phase_ne_idle
  obtain ⟨hflags, -, hat⟩ := htree
  cases hp : s.phase <;> simp only [runningStep, hp] at hat ⊢
  case idle => exact absurd hp hpos
  case buildMerge => exact noFault_stepBuildMerge hat.2
  case deriveVisit stack => exact noFault_deriveVisit (hflags hat.1).2 hat.2
  case deriveCheck | headerCheck | packCheck | walkCheck | verifyCheck => exact noFault_require _ _ _ s
  all_goals exact noFault_next _

theorem noFault_microStep {s : State} (h : Invariant s) : NoFault (microStep s) := by
  cases hb : s.busy with
  | false =>
    rw [microStep_idle hb]
    exact noFault_next s
  | true =>
    rw [microStep_busy hb]
    exact noFault_runningStep hb h

theorem noFault_microSteps (k : Nat) {s : State} (h : Invariant s) : NoFault (microSteps k s) := by
  induction k generalizing s with
  | zero => exact noFault_next s
  | succ k ih => exact (noFault_microStep h).andThen fun t ht => ih (invariant_closed.microStep h ht)

/-- A command's run is a number of micro-steps from its acceptance. -/
theorem noFault_exec {s : State} (i : Instr) (h : Invariant s) : NoFault (exec i s) := by
  by_cases hi : i = .reset
  · subst hi
    exact noFault_next _
  · cases hb : s.busy with
    | false =>
      obtain ⟨⟨k, hk⟩, -⟩ := exec_reached hi hb
      rw [← hk]
      exact noFault_microSteps k (invariant_closed.accept s i hi hb h)
    | true =>
      rw [exec_eq_issue hi, issue_busy hb]
      exact noFault_next _

theorem noFault_hostRead (off : Nat) (s : State) : NoFault (hostRead off s) := by
  unfold hostRead
  split
  · exact noFault_next _
  · exact noFault_refused _

theorem noFault_hostWrite (off : Nat) (v : Word) (s : State) : NoFault (hostWrite off v s) := by
  unfold hostWrite
  split
  · exact noFault_next _
  · exact noFault_refused _

theorem noFault_hostAttach (bytes : List Byte) (s : State) : NoFault (hostAttach bytes s) := by
  unfold hostAttach
  split
  · exact noFault_refused _
  · exact noFault_next _

theorem noFault_hostWait {s : State} (h : Invariant s) : NoFault (hostWait s) := by
  unfold hostWait
  split
  · exact (noFault_microStep h).andThen fun t _ => noFault_next _
  · exact noFault_hostRead _ s

theorem noFault_runCommand (w : Word) {s : State} (h : Invariant s) : NoFault (runCommand w s) := by
  cases hw : decode w with
  | ok i =>
    rw [runCommand_legal hw]
    exact noFault_exec i h
  | error e =>
    rw [runCommand_illegal hw]
    exact noFault_next _

theorem noFault_hostMove (m : HostMove) {s : State} (h : Invariant s) : NoFault (hostMove m s) := by
  cases m with
  | read off => exact noFault_hostRead off s
  | write off v => exact noFault_hostWrite off v s
  | attach bytes => exact noFault_hostAttach bytes s
  | hardReset => exact noFault_next _
  | wait => exact noFault_hostWait h
  | turn => exact noFault_microStep h
  | command w => exact noFault_runCommand w h

/-- Settles O57: neither a micro-step nor a move of the host faults, and taking a move off the script keeps the
invariants. -/
theorem noStepFaults : Obligations.NoStepFaults := by
  intro s hctrl htree f
  have h : Invariant s := ⟨hctrl, htree⟩
  rcases step_cases s with ⟨-, heq⟩ | ⟨m, rest, -, heq⟩ <;> rw [heq]
  · exact noFault_microStep h f
  · exact noFault_hostMove m (invariant_closed.record s rest s.reads s.draws h) f

end Sys2Proof.Machine
end

section
/-! SUPPORT. COUNT (41_tree_builder.md R141 to R143): the bytes it counts, the counts it leaves, and the byte it
refuses. -/

namespace Sys2Proof.Machine

/-! ### The table of counts -/

theorem getAt_countsOf (bytes : List Byte) (sym : Byte) :
    getAt (countsOf bytes) sym = BitVec.ofNat 32 (bytes.count sym) := by
  simp [getAt, countsOf]

theorem countsOf_nil : countsOf [] = Vector.replicate 256 0 :=
  vector_ext_getAt fun sym => by rw [getAt_countsOf, getAt_replicate, List.count_nil]; rfl

/-- One more byte is one more in its counter (R141). -/
theorem countsOf_concat (bytes : List Byte) (b : Byte) :
    countsOf (bytes ++ [b]) = setAt (countsOf bytes) b (getAt (countsOf bytes) b + 1) := by
  refine vector_ext_getAt fun sym => ?_
  rw [getAt_setAt, getAt_countsOf, getAt_countsOf, getAt_countsOf, List.count_append, List.count_singleton]
  by_cases h : b = sym
  · subst h
    rw [if_pos rfl, if_pos (beq_self_eq_true b), BitVec.ofNat_add]
    rfl
  · rw [if_neg h, if_neg (by simpa using h), Nat.add_zero]

/-- Over symbols that are different and enough, the counts add up to the number of bytes. -/
theorem sum_count {syms bytes : List Byte} (hnodup : syms.Nodup) (hall : ∀ b ∈ bytes, b ∈ syms) :
    (syms.map fun sym => bytes.count sym).sum = bytes.length := by
  rw [← List.sum_toFinset _ hnodup]
  simpa using Multiset.sum_count_eq_card (s := syms.toFinset) (m := (bytes : Multiset Byte)) (by simpa using hall)

theorem symbols_nodup : symbols.Nodup := .of_map leafOf (leaves_ascending.imp fun h => ne_of_lt h)

/-! ### The loop -/

/-- The bytes are consumed and counted, one after another. -/
def countedAll (bytes : List Byte) (s : State) : State := bytes.foldl (fun t b => counted b (consume t)) s

/-- COUNT counts bytes as long as TOTAL stays below 2^32. -/
theorem countLoop_append (bytes rest : List Byte) {s : State} (hb : s.busy = true)
    (hlen : s.total.toNat + bytes.length < 2 ^ 32) :
    countLoop (bytes ++ rest) s = countLoop rest (countedAll bytes s) := by
  induction bytes generalizing s with
  | nil => rfl
  | cons b bytes ih =>
    rw [List.length_cons] at hlen
    have hne : s.total ≠ 0xFFFFFFFF := fun h => by
      rw [h, show (0xFFFFFFFF : Word).toNat = 2 ^ 32 - 1 from rfl] at hlen
      omega
    have hbusy : (counted b (consume s)).busy = true := hb
    have htotal : (counted b (consume s)).total.toNat = s.total.toNat + 1 :=
      (BitVec.toNat_add s.total 1).trans (Nat.mod_eq_of_lt (Nat.lt_of_le_of_lt (by simp) hlen))
    rw [List.cons_append, countLoop_cons, countByte_counted (s := consume s) hne, if_pos hbusy]
    exact ih hbusy (by omega)

/-- With TOTAL at 2^32 - 1 one more byte ends the command (R142). -/
theorem countLoop_full (b : Byte) (rest : List Byte) {s : State} (ht : s.total = 0xFFFFFFFF) :
    countLoop (b :: rest) s = abort .inputTooLong (b.setWidth 32) (consume s) := by
  rw [countLoop_cons, countByte_full (s := consume s) ht]
  exact if_neg Bool.false_ne_true

/-- The data COUNT leaves after it has counted `bytes`: their counts, with the flags cleared (R141, R143, R63). -/
def withCounts (bytes : List Byte) (s : State) : State :=
  { s with
    treeValid := false, codesValid := false, decDone := false
    freq := countsOf bytes, total := BitVec.ofNat 32 bytes.length, inPos := s.inPos + bytes.length }

theorem withCounts_concat (bytes : List Byte) (b : Byte) (s : State) :
    withCounts (bytes ++ [b]) s = counted b (consume (withCounts bytes s)) := by
  rw [withCounts, countsOf_concat, List.length_append, BitVec.ofNat_add]
  rfl

/-- From the cleared tables on, FREQ and TOTAL are those of the bytes consumed. -/
theorem countedAll_countClear (bytes : List Byte) (s : State) :
    countedAll bytes (countClear s) = withCounts bytes s := by
  induction bytes using List.reverseRecOn with
  | nil => rw [withCounts, countsOf_nil]; rfl
  | append_singleton bytes b ih =>
    rw [withCounts_concat, ← ih]
    exact List.foldl_concat ..

/-! ### The command -/

/-- COUNT's run while no more bytes are unread than it may count (R141). -/
theorem countBody_counts {s : State} (hb : s.busy = true) (hlen : (unread s).length < 2 ^ 32) :
    countBody s = .next (finishElement (withCounts (unread s) s)) := by
  have hloop := countLoop_append (unread s) [] (s := countClear s) hb (by simpa [countClear] using hlen)
  rw [List.append_nil, countedAll_countClear] at hloop
  exact congrArg Host.Outcome.next hloop

/-- COUNT's run where more bytes are unread than it may count: the next one is consumed and not counted (R142). -/
theorem countBody_refuses {s : State} {bytes rest : List Byte} {b : Byte} (hb : s.busy = true)
    (hunread : unread s = bytes ++ b :: rest) (hlen : bytes.length = 2 ^ 32 - 1) :
    countBody s = .next (abort .inputTooLong (b.setWidth 32) (consume (withCounts bytes s))) := by
  have hloop := countLoop_append bytes (b :: rest) (s := countClear s) hb (by simp [countClear, hlen])
  have htotal : (withCounts bytes s).total = 0xFFFFFFFF := by simp [withCounts, hlen]
  rw [countedAll_countClear, countLoop_full b rest htotal, ← hunread] at hloop
  exact congrArg Host.Outcome.next hloop

theorem exec_count {s : State} (hb : s.busy = false) (hlen : (unread s).length < 2 ^ 32) :
    exec .count s = .next (withCounts (unread s) (completed s)) := by
  have hend : finishElement (withCounts (unread s) (accept .count s)) =
      complete (withCounts (unread s) (accept .count s)) := finishElement_primitive (i := .count) (s := s) rfl rfl
  rw [exec_primitive (by decide) rfl hb]
  exact (countBody_counts (s := accept .count s) rfl hlen).trans (congrArg Host.Outcome.next hend)

/-- Settles O15: the loop counts every unread byte, and COUNT's one element completes the command. -/
theorem countCountsUnread : Obligations.CountCountsUnread := fun _ hb hlen => exec_count hb hlen

/-- A list with an `n`-th element is the `n` elements before it, the element, and what comes after. -/
theorem eq_take_append_of_getElem? {bytes : List Byte} {n : Nat} {b : Byte} (h : bytes[n]? = some b) :
    bytes = bytes.take n ++ b :: bytes.drop (n + 1) ∧ (bytes.take n).length = n := by
  obtain ⟨hlt, rfl⟩ := List.getElem?_eq_some_iff.1 h
  exact ⟨by rw [← List.drop_eq_getElem_cons, List.take_append_drop], List.length_take_of_le hlt.le⟩

/-- What COUNT leaves where it refuses a byte after the counted `bytes` (R142, R226). -/
theorem exec_count_refuses {s : State} {bytes rest : List Byte} {b : Byte} (hb : s.busy = false)
    (hunread : unread s = bytes ++ b :: rest) (hlen : bytes.length = 2 ^ 32 - 1) :
    exec .count s = .next (consume (withCounts bytes (aborted 0x10 .inputTooLong (b.setWidth 32) s))) := by
  rw [exec_primitive (by decide) rfl hb]
  exact countBody_refuses (s := accept .count s) rfl hunread hlen

/-- The accepted ENCODE at the start of its second element, COUNT (R106, R177). -/
def encodeAtCount (s : State) : State := enterElement .count { rewindInput (accept .encode s) with mstep := 1 }

/-- In ENCODE the source is rewound first, and COUNT's abort ends ENCODE (R177, R226). -/
theorem exec_encode_refuses {s : State} {bytes rest : List Byte} {b : Byte} (hb : s.busy = false)
    (hsrc : s.src = bytes ++ b :: rest) (hlen : bytes.length = 2 ^ 32 - 1) :
    exec .encode s = .next (consume (withCounts bytes
      (rewindInput (aborted 0x10 .inputTooLong (b.setWidth 32) s)))) := by
  have hrewind : elementBody .rewind (accept .encode s) = .next (encodeAtCount s) := rfl
  have hbusy : (encodeAtCount s).busy = true := rfl
  have hcount : elementBody .count (encodeAtCount s) = .next (abort .inputTooLong (b.setWidth 32)
      (consume (withCounts bytes (encodeAtCount s)))) := countBody_refuses hbusy hsrc hlen
  rw [exec_eq_issue (by decide), issue_idle hb, expansion, List.map_cons, List.map_cons,
    runElements_cons_next hrewind, if_pos hbusy, runElements_cons_next hcount]
  exact if_neg Bool.false_ne_true

/-- The byte that is refused is the 2^32-th consumed, and TOTAL stays at the number of bytes counted (R142). -/
theorem consume_withCounts {bytes : List Byte} (hlen : bytes.length = 2 ^ 32 - 1) (s : State) :
    consume (withCounts bytes s) = { s with
      treeValid := false, codesValid := false, decDone := false
      freq := countsOf bytes, total := 0xFFFFFFFF, inPos := s.inPos + 2 ^ 32 } := by
  have hpos : s.inPos + bytes.length + 1 = s.inPos + 2 ^ 32 := by omega
  have htotal : BitVec.ofNat 32 bytes.length = 0xFFFFFFFF := by rw [hlen]; rfl
  simp only [consume, withCounts, hpos, htotal]

/-- Settles O28: the 2^32-th byte finds TOTAL at 2^32 - 1; in ENCODE it is COUNT that meets it, after the rewind. -/
theorem tooLongInputIsRefused : Obligations.TooLongInputIsRefused := by
  intro s b hb
  constructor
  · intro h
    obtain ⟨hsplit, hlen⟩ := eq_take_append_of_getElem? h
    rw [exec_count_refuses hb hsplit hlen, consume_withCounts hlen]
    rfl
  · intro h
    obtain ⟨hsplit, hlen⟩ := eq_take_append_of_getElem? h
    rw [exec_encode_refuses hb hsplit hlen, consume_withCounts hlen]
    simp only [rewindInput, Nat.zero_add]

/-- A COUNT that completes had no more bytes unread than it may count. -/
theorem unread_length_lt_of_done {s t : State} (hb : s.busy = false) (h : exec .count s = .next t)
    (hdone : t.done = true) : (unread s).length < 2 ^ 32 := by
  by_contra hlong
  have hbyte := List.getElem?_eq_getElem (l := unread s) (i := 2 ^ 32 - 1) (by omega)
  obtain ⟨hsplit, hfull⟩ := eq_take_append_of_getElem? hbyte
  rw [exec_count_refuses hb hsplit hfull] at h
  cases h
  exact Bool.false_ne_true hdone

/-- No counter of fewer than 2^32 bytes wraps. -/
theorem getAt_countsOf_toNat {bytes : List Byte} (hlen : bytes.length < 2 ^ 32) (sym : Byte) :
    (getAt (countsOf bytes) sym).toNat = bytes.count sym := by
  rw [getAt_countsOf, BitVec.toNat_ofNat]
  exact Nat.mod_eq_of_lt (Nat.lt_of_le_of_lt List.count_le_length hlen)

/-- Settles O16: a COUNT that completes has counted every unread byte, each under one symbol. -/
theorem countSumIsTotal : Obligations.CountSumIsTotal := by
  intro s t hb h hdone
  have hlen := unread_length_lt_of_done hb h hdone
  have htotal : (BitVec.ofNat 32 (unread s).length).toNat = (unread s).length := Nat.mod_eq_of_lt hlen
  have hunread : (unread s).length = s.src.length - s.inPos := List.length_drop
  rw [exec_count hb hlen] at h
  cases h
  simp only [withCounts, getAt_countsOf_toNat hlen, htotal]
  refine ⟨sum_count symbols_nodup fun b _ => mem_symbols b, hunread, fun sym => List.count_le_length,
    Nat.le_pred_of_lt hlen, ?_, ?_⟩
  · intro hpos
    change s.inPos + (unread s).length = s.src.length
    omega
  · refine List.drop_of_length_le ?_
    change s.src.length ≤ s.inPos + (unread s).length
    omega

end Sys2Proof.Machine
end

section
/-! SUPPORT. BUILD_TREE's merges (41_tree_builder.md R144 to R147): each takes the two least nodes without a parent, so
the arena is a function of FREQ. -/

namespace Sys2Proof.Machine

/-! ### The order of the queue (R144) -/

section
variable {nodes nodes' : Vector Node 511} {a b c : NodeIdx}

theorem keyBefore_iff_keyLt : KeyBefore nodes a b ↔ keyLt nodes a b = true := (keyLt_iff nodes a b).symm

theorem KeyBefore.trans (h : KeyBefore nodes a b) (h' : KeyBefore nodes b c) : KeyBefore nodes a c := by
  rw [keyBefore_iff_keyLt] at *
  exact keyLt_trans h h'

theorem KeyBefore.asymm (h : KeyBefore nodes a b) : ¬ KeyBefore nodes b a := by
  intro h'
  rcases h.trans h' with hlt | ⟨-, hlt⟩
  · exact lt_irrefl _ hlt
  · exact lt_irrefl _ hlt

theorem KeyBefore.congr (ha : nodes[a] = nodes'[a]) (hb : nodes[b] = nodes'[b]) (h : KeyBefore nodes a b) :
    KeyBefore nodes' a b := by
  unfold KeyBefore at h ⊢
  rwa [← ha, ← hb]

end

/-! ### The two least nodes -/

/-- `l` is the least and `r` the second least of the free nodes (R145). -/
def TwoLeast (nodes : Vector Node 511) (free : NodeIdx → Prop) (l r : NodeIdx) : Prop :=
  free l ∧ free r ∧ KeyBefore nodes l r ∧ ∀ m, free m → m ≠ l → m ≠ r → KeyBefore nodes r m

section
variable {nodes nodes' : Vector Node 511} {free free' : NodeIdx → Prop} {l r l' r' : NodeIdx}

theorem TwoLeast.congr (hfree : ∀ m, free m ↔ free' m) (hsame : ∀ m, free m → nodes[m] = nodes'[m])
    (h : TwoLeast nodes free l r) : TwoLeast nodes' free' l r := by
  obtain ⟨hl, hr, hlr, hrest⟩ := h
  refine ⟨(hfree l).1 hl, (hfree r).1 hr, hlr.congr (hsame l hl) (hsame r hr), fun m hm hml hmr => ?_⟩
  have hm := (hfree m).2 hm
  exact (hrest m hm hml hmr).congr (hsame r hr) (hsame m hm)

theorem TwoLeast.least (h : TwoLeast nodes free l r) {m : NodeIdx} (hm : free m) (hne : m ≠ l) :
    KeyBefore nodes l m := by
  obtain ⟨-, -, hlr, hrest⟩ := h
  by_cases hmr : m = r
  · rwa [hmr]
  · exact hlr.trans (hrest m hm hne hmr)

/-- No two pairs of nodes are the two least. -/
theorem TwoLeast.unique (h : TwoLeast nodes free l r) (h' : TwoLeast nodes free l' r') : l = l' ∧ r = r' := by
  have hl : l = l' := by
    by_contra hne
    exact (h.least h'.1 (Ne.symm hne)).asymm (h'.least h.1 hne)
  subst hl
  obtain ⟨-, hr, hlr, hrest⟩ := h
  obtain ⟨-, hr', hlr', hrest'⟩ := h'
  refine ⟨rfl, ?_⟩
  by_contra hne
  have hrl : r ≠ l := fun h => hlr.asymm (h ▸ hlr)
  have hrl' : r' ≠ l := fun h => hlr'.asymm (h ▸ hlr')
  exact (hrest r' hr' hrl' (Ne.symm hne)).asymm (hrest' r hr hrl hne)

end

/-- What a queue of different nodes gives up first and second are its two least nodes. -/
theorem twoLeast_of_popMin {nodes : Vector Node 511} {q q₁ q₂ : List NodeIdx} {a b : NodeIdx} (hnodup : q.Nodup)
    (ha : popMin nodes q = some (a, q₁)) (hb : popMin nodes q₁ = some (b, q₂)) : TwoLeast nodes (· ∈ q) a b := by
  obtain ⟨haq, rfl, hleast⟩ := popMin_some ha
  obtain ⟨hbq, -, hnext⟩ := popMin_some hb
  simp only [hnodup.mem_erase_iff] at hbq hnext
  obtain ⟨hba, hbq⟩ := hbq
  exact ⟨haq, hbq, keyBefore_iff_keyLt.2 (hleast b hbq hba),
    fun m hm hma hmb => keyBefore_iff_keyLt.2 (hnext m ⟨hma, hm⟩ hmb)⟩

/-! ### The nodes a merge made -/

/-- Node `m` comes before `n` and no merge before `n` has taken it. -/
def FreeBelow (nodes : Vector Node 511) (n m : NodeIdx) : Prop := m < n ∧ ¬ ∃ p, ParentIn nodes n.val p m

/-- Node `n` is the merge of the two least nodes that were free when it was made (R145, R147). -/
def IsMerge (nodes : Vector Node 511) (n : NodeIdx) : Prop :=
  nodes[n] = mergeNode nodes nodes[n].left nodes[n].right ∧
    TwoLeast nodes (FreeBelow nodes n) nodes[n].left nodes[n].right

/-- The leaves and the merges below `hi`. -/
def MergedUpTo (freq : Vector Word 256) (nodes : Vector Node 511) (hi : Nat) : Prop :=
  (∀ sym, nodes[leafOf sym] = leafNode (getAt freq sym)) ∧ ∀ n : NodeIdx, 256 ≤ n.val → n.val < hi → IsMerge nodes n

section
variable {nodes nodes' : Vector Node 511} {n a b : NodeIdx}

theorem FreeBelow.congr (hsame : ∀ m < n, nodes[m] = nodes'[m]) {m : NodeIdx} :
    FreeBelow nodes n m ↔ FreeBelow nodes' n m := by
  have hparent (p : NodeIdx) : ParentIn nodes n.val p m ↔ ParentIn nodes' n.val p m := by
    refine and_congr_right fun _ => and_congr_right fun hlt => ?_
    rw [hsame p (Fin.lt_def.2 hlt)]
  simp only [FreeBelow, hparent]

theorem mergeNode_congr (ha : nodes[a] = nodes'[a]) (hb : nodes[b] = nodes'[b]) :
    mergeNode nodes a b = mergeNode nodes' a b := by
  rw [mergeNode, mergeNode, ha, hb]

/-- Whether `n` is a merge is seen in the arena up to `n`. -/
theorem IsMerge.congr (hsame : ∀ m < n, nodes[m] = nodes'[m]) (hn : nodes[n] = nodes'[n]) (h : IsMerge nodes n) :
    IsMerge nodes' n := by
  obtain ⟨hnode, htwo⟩ := h
  have htwo' := htwo.congr (free' := FreeBelow nodes' n) (fun m => FreeBelow.congr hsame) fun m hm => hsame m hm.1
  rw [IsMerge, ← hn]
  refine ⟨hnode.trans (mergeNode_congr (hsame _ htwo.1.1) (hsame _ htwo.2.1.1)), htwo'⟩

/-- Two merges over the same nodes are the same node. -/
theorem IsMerge.unique (hsame : ∀ m < n, nodes[m] = nodes'[m]) (h : IsMerge nodes n) (h' : IsMerge nodes' n) :
    nodes[n] = nodes'[n] := by
  obtain ⟨hnode, htwo⟩ := h
  obtain ⟨hnode', htwo'⟩ := h'
  have ⟨hl, hr⟩ := (htwo.congr (fun m => FreeBelow.congr hsame) fun m hm => hsame m hm.1).unique htwo'
  rw [hnode, hnode', ← hl, ← hr]
  exact mergeNode_congr (hsame _ htwo.1.1) (hsame _ htwo.2.1.1)

end

/-- The leaves and the merges over them are determined by FREQ (R146 (f)). -/
theorem MergedUpTo.unique {freq : Vector Word 256} {nodes nodes' : Vector Node 511} (h : MergedUpTo freq nodes 511)
    (h' : MergedUpTo freq nodes' 511) : nodes = nodes' := by
  have hsame (k : Nat) : ∀ m : NodeIdx, m.val < k → nodes[m] = nodes'[m] := by
    induction k with
    | zero => exact fun m hm => absurd hm (Nat.not_lt_zero _)
    | succ k ih =>
      intro m hm
      by_cases hleaf : m.val < 256
      · obtain ⟨sym, rfl⟩ := exists_leafOf hleaf
        rw [h.1, h'.1]
      · have hm256 : 256 ≤ m.val := Nat.le_of_not_lt hleaf
        refine (h.2 m hm256 m.isLt).unique (fun p hp => ih p ?_) (h'.2 m hm256 m.isLt)
        exact Nat.lt_of_lt_of_le (Fin.lt_def.1 hp) (Nat.le_of_lt_succ hm)
  exact Vector.ext fun i hi => hsame 511 ⟨i, hi⟩ hi

/-! ### The merges of BUILD_TREE -/

/-- A forest that has the shape, and whose internal nodes are the merges of the two least. -/
def MergedForest (freq : Vector Word 256) (f : Forest) : Prop :=
  ForestShape freq f ∧ MergedUpTo freq f.nodes f.nextNode.toNat

theorem mergedForest_leaves {freq : Vector Word 256} {nodes : Vector Node 511}
    (h : ∀ sym, nodes[leafOf sym] = leafNode (getAt freq sym)) :
    MergedForest freq { nodes := nodes, q := leaves, nextNode := 256 } :=
  ⟨forestShape_leaves h, h, fun _ hn hlt => absurd hlt (Nat.not_lt.2 hn)⟩

/-- A new node over the two least nodes of Q is a merge, and the nodes below it stay what they are. -/
theorem mergedUpTo_set {freq : Vector Word 256} {nodes : Vector Node 511} {n a b : NodeIdx} (hn : 256 ≤ n.val)
    (h : MergedUpTo freq nodes n.val) (htwo : TwoLeast nodes (FreeBelow nodes n) a b) :
    MergedUpTo freq (nodes.set n (mergeNode nodes a b)) (n.val + 1) := by
  obtain ⟨hleaf, hmerge⟩ := h
  have hold (m : NodeIdx) (hm : m < n) : nodes[m] = (nodes.set n (mergeNode nodes a b))[m] := by
    rw [set_get, if_neg (ne_of_lt hm)]
  have hnew : (nodes.set n (mergeNode nodes a b))[n] = mergeNode nodes a b := by rw [set_get, if_pos rfl]
  refine ⟨fun sym => ?_, fun k hk hkn => ?_⟩
  · rw [← hold _ (Fin.lt_def.2 (Nat.lt_of_lt_of_le sym.isLt hn)), hleaf]
  · by_cases hkn' : k = n
    · subst hkn'
      rw [IsMerge, hnew]
      exact ⟨mergeNode_congr (hold a htwo.1.1) (hold b htwo.2.1.1),
        htwo.congr (fun m => FreeBelow.congr hold) fun m hm => hold m hm.1⟩
    · have hlt : k < n := lt_of_le_of_ne (Fin.le_def.2 (Nat.le_of_lt_succ hkn)) hkn'
      exact (hmerge k hk hlt).congr (fun m hm => hold m (hm.trans hlt)) (hold k hlt)

theorem MergedForest.mergeOnce {freq : Vector Word 256} {f : Forest} (h : MergedForest freq f) (h2 : 2 ≤ f.q.length) :
    MergedForest freq (mergeOnce f) := by
  obtain ⟨hshape, hmerged⟩ := h
  refine ⟨hshape.mergeOnce h2, ?_⟩
  obtain ⟨-, hnext⟩ := mergeOnce_counts h2 hshape.counts
  obtain ⟨hlow, -, hsum, hasc, -, -, hq⟩ := hshape
  have hn : f.nextNode.toNat < 511 := by omega
  obtain ⟨a, b, ha, hb, hmerge⟩ := mergeOnce_eq h2 hn
  have htwo : TwoLeast f.nodes (FreeBelow f.nodes ⟨f.nextNode.toNat, hn⟩) a b :=
    (twoLeast_of_popMin (hasc.imp fun h => ne_of_lt h) ha hb).congr hq fun _ _ => rfl
  rw [hnext, hmerge]
  exact mergedUpTo_set (n := ⟨f.nextNode.toNat, hn⟩) hlow hmerged htwo

/-- The 255 merges from the leaves give a full tree of merges with the single node 510 in Q. -/
theorem mergeTimes_merged {freq : Vector Word 256} {nodes : Vector Node 511}
    (h : ∀ sym, nodes[leafOf sym] = leafNode (getAt freq sym)) :
    (mergeTimes 255 { nodes := nodes, q := leaves, nextNode := 256 }).q = [510] ∧
      MergedUpTo freq (mergeTimes 255 { nodes := nodes, q := leaves, nextNode := 256 }).nodes 511 := by
  obtain ⟨⟨hshape, hmerged⟩, h1⟩ := mergeTimes_induction (P := MergedForest freq) (fun f => MergedForest.mergeOnce)
    (fun f hf => hf.1.counts) 255 _ (mergedForest_leaves h) leaves_length
  have hcounts := hshape.counts
  rw [show (mergeTimes 255 { nodes := nodes, q := leaves, nextNode := 256 }).nextNode.toNat = 511 by omega] at hmerged
  exact ⟨(hshape.finished h1).1, hmerged⟩

theorem treeOf_merged (freq : Vector Word 256) : MergedUpTo freq (treeOf freq) 511 := by
  rw [treeOf]
  exact (mergeTimes_merged (withLeaves_leaf freq _)).2

theorem treeOf_shape (freq : Vector Word 256) : TreeShape freq (treeOf freq) := by
  obtain ⟨hforest, h1⟩ := mergeTimes_leaves (withLeaves_leaf freq (Vector.replicate 511 (leafNode 0)))
  rw [treeOf]
  exact (hforest.finished h1).2.1

/-! ### The command -/

/-- BUILD_TREE leaves `nodes` in the arena, with root 510 (R145), and NEXT unspecified (R31). -/
def withTree (nodes : Vector Node 511) (s : State) : State :=
  releaseNext { s with treeValid := true, codesValid := false, nodes := nodes, root := 510, q := [] }

theorem withTree_nodes (nodes : Vector Node 511) (s : State) : (withTree nodes s).nodes = nodes := rfl

theorem buildFinish_withForest {f : Forest} (hq : f.q = [510]) (s : State) :
    buildFinish (withForest f (buildInit s)) = finishElement (withTree f.nodes s) := by
  rw [buildFinish, withForest_q, hq]
  rfl

/-- Whatever the arena held, the merges over the leaves leave the tree of FREQ (R146 (f)). -/
theorem buildBody_eq (s : State) : buildBody s = .next (finishElement (withTree (treeOf s.freq) s)) := by
  obtain ⟨hq, hmerged⟩ := mergeTimes_merged (withLeaves_leaf s.freq s.nodes)
  have hbody : buildBody s =
      .next (buildFinish (withForest (mergeTimes (leaves.length - 1) (forestOf (buildInit s))) (buildInit s))) := rfl
  rw [hbody, leaves_length, forestOf_buildInit, buildFinish_withForest hq,
    hmerged.unique (treeOf_merged s.freq)]

theorem finishElement_withTree (nodes : Vector Node 511) (s : State) :
    finishElement (withTree nodes (accept .buildTree s)) = withTree nodes (completed s) :=
  finishElement_primitive (i := .buildTree) (s := s) rfl rfl

theorem exec_buildTree {s : State} (hb : s.busy = false) :
    exec .buildTree s = .next (withTree (treeOf s.freq) (completed s)) := by
  rw [exec_primitive (by decide) rfl hb, elementBody, buildBody_eq, finishElement_withTree]
  rfl

/-- BUILD_TREE leaves the leaves and the merges over them. -/
theorem exec_buildTree_merged {s t : State} (hb : s.busy = false) (h : exec .buildTree s = .next t) :
    MergedUpTo s.freq t.nodes 511 := by
  have ht : t = withTree (treeOf s.freq) (completed s) := Host.Outcome.next.inj (h.symm.trans (exec_buildTree hb))
  rw [ht, withTree_nodes]
  exact treeOf_merged s.freq

/-- Settles O17: the leaves and the merges over them are determined by FREQ alone. -/
theorem buildTreeCompletes : Obligations.BuildTreeCompletes := by
  intro s hb
  rw [exec_buildTree hb]
  generalize treeOf s.freq = nodes
  exact ⟨Config.freeNext s.draws, s.draws + 1, rfl⟩

/-- Settles O18: the finished arena is that of the merges, and each took the two least nodes of Q, which are the nodes
without a parent. -/
theorem mergesTakeTheTwoLeast : Obligations.MergesTakeTheTwoLeast := by
  intro s t hb h
  obtain ⟨hleaf, hmerge⟩ := exec_buildTree_merged hb h
  refine ⟨fun sym => ?_, fun n hn => ?_⟩
  · rw [hleaf]
    exact ⟨rfl, rfl⟩
  · obtain ⟨hnode, hl, hr, hlr, hrest⟩ := hmerge n hn n.isLt
    exact ⟨congrArg Node.leaf hnode, hl, hr, hlr, hrest, congrArg Node.weight hnode⟩

/-- Settles O19: the forest's shape is kept by every merge, and with one node in Q it is the full tree. -/
theorem builtTreeIsFull : Obligations.BuiltTreeIsFull := by
  intro s t hb h
  have hbody : exec .buildTree s = buildBody (accept .buildTree s) := exec_primitive (by decide) rfl hb
  obtain ⟨hroot, htree, -⟩ := buildBody_tree (hbody.symm.trans h)
  exact ⟨hroot, htree⟩

end Sys2Proof.Machine
end

section
/-! SUPPORT. What DERIVE_CODES completes with (41_tree_builder.md R149, R150): the path of every symbol, and their Kraft
sum. -/

namespace Sys2Proof.Machine

/-! ### Codes as paths -/

theorem bitsToNat_lt (path : List Bool) : bitsToNat path < 2 ^ path.length := by
  induction path using List.reverseRecOn with
  | nil => exact Nat.one_pos
  | append_singleton path bit ih =>
    have hbit : bit.toNat ≤ 1 := Bool.toNat_le bit
    rw [bitsToNat_concat, Nat.bit_val, List.length_append, List.length_singleton, Nat.pow_succ]
    omega

/-- The entry of a path of at most 255 bits holds its length and its bits (R30). -/
theorem codeOfPath_fields {path : List Bool} (hlen : path.length ≤ 255) :
    (codeOfPath path).len.toNat = path.length ∧ (codeOfPath path).val.toNat = bitsToNat path := by
  have hval := bitsToNat_lt path
  have hpow : 2 ^ path.length ≤ 2 ^ 256 := Nat.pow_le_pow_right Nat.two_pos (by omega)
  exact ⟨Nat.mod_eq_of_lt (by omega), Nat.mod_eq_of_lt (Nat.lt_of_lt_of_le hval hpow)⟩

/-- The code table holds for every symbol a path from ROOT to its leaf. -/
def PathCodes (nodes : Vector Node 511) (codes : Vector Code 256) : Prop :=
  ∀ sym, ∃ path, LeafPath nodes (leafOf sym) 510 path ∧ path.length ≤ 255 ∧ getAt codes sym = codeOfPath path

theorem pathCodes_of_visit {freq : Vector Word 256} {nodes : Vector Node 511} {t codes : Vector Code 256}
    (htree : TreeShape freq nodes) (h : visit nodes Config.maxCodeLen 510 [] t = some codes) :
    PathCodes nodes codes := by
  intro sym
  rcases visit_visitCodes (sym := sym) htree.1.lt_of_leaf h with ⟨path, hpath, hlen, hcode⟩ | ⟨hno, -⟩
  · exact ⟨path, hpath, hlen, hcode⟩
  · exact absurd (exists_leafPath_root htree (path := []) ⟨rfl, (htree.1.1 sym).1⟩) hno

/-- ROOT is no leaf, so the path to a leaf has at least one bit (R150 (a)). -/
theorem LeafPath.length_pos {freq : Vector Word 256} {nodes : Vector Node 511} {m : NodeIdx} {path : List Bool}
    (htree : TreeShape freq nodes) (h : LeafPath nodes m 510 path) : 1 ≤ path.length := by
  cases path with
  | nil => exact absurd (htree.root_internal.symm.trans h.2) Bool.false_ne_true
  | cons bit path => exact Nat.le_add_left 1 _

theorem PathCodes.codesFit {freq : Vector Word 256} {nodes : Vector Node 511} {codes : Vector Code 256}
    (htree : TreeShape freq nodes) (h : PathCodes nodes codes) : CodesFit nodes codes := by
  intro sym
  obtain ⟨path, hpath, hlen, hcode⟩ := h sym
  obtain ⟨hcodeLen, hcodeVal⟩ := codeOfPath_fields hlen
  rw [hcode, hcodeLen, hcodeVal, codeBits_codeOfPath hlen]
  exact ⟨hpath.length_pos htree, bitsToNat_lt path, hpath.follow_eq⟩

/-! ### The command -/

/-- On a full tree DERIVE_CODES completes with the paths in the code table (R149). -/
theorem exec_deriveCodes {s : State} (hb : s.busy = false) (hv : s.treeValid = true) (hroot : s.root = 510)
    (htree : TreeShape s.freq s.nodes) :
    ∃ codes, exec .deriveCodes s = .next { completed s with codesValid := true, codes := codes } ∧
      PathCodes s.nodes codes := by
  obtain ⟨codes, hvisit⟩ := visit_tree_isSome htree s.codes
  have hbody : deriveBody (accept .deriveCodes s) =
      .next (deriveFinish { accept .deriveCodes s with codes := codes }) := by
    have hvisit' : visit (accept .deriveCodes s).nodes Config.maxCodeLen (accept .deriveCodes s).root []
        (accept .deriveCodes s).codes = some codes := by rw [accept_root, hroot]; exact hvisit
    rw [deriveBody, accept_treeValid, hv, require_set, hvisit']
  have hend : deriveFinish { accept .deriveCodes s with codes := codes } =
      { completed s with codesValid := true, codes := codes } :=
    finishElement_primitive (i := .deriveCodes) (s := s) rfl rfl
  rw [exec_primitive (by decide) rfl hb, elementBody, hbody, hend]
  exact ⟨codes, rfl, pathCodes_of_visit htree hvisit⟩

/-- Settles O21: the visit reaches every leaf within 255 levels, and writes each symbol's path as its code. -/
theorem deriveCodesGivesPaths : Obligations.DeriveCodesGivesPaths := by
  intro s hb hv hroot htree
  obtain ⟨codes, hexec, hpaths⟩ := exec_deriveCodes hb hv hroot htree
  exact ⟨codes, hexec, hpaths.codesFit htree⟩

/-! ### One path to each leaf (R146 (c)) -/

/-- The bits `up` lead from node `m` up to ROOT over internal nodes, last bit of the path first. -/
def Climbs (nodes : Vector Node 511) : NodeIdx → List Bool → Prop
  | m, [] => m = 510
  | m, bit :: up => ∃ p, nodes[p].leaf = false ∧ childOf nodes p bit = m ∧ Climbs nodes p up

section
variable {freq : Vector Word 256} {nodes : Vector Node 511} {m n : NodeIdx}

theorem LeafPath.climbs {path up : List Bool} (h : LeafPath nodes m n path) (hup : Climbs nodes n up) :
    Climbs nodes m (path.reverse ++ up) := by
  induction path generalizing n up with
  | nil =>
    obtain ⟨rfl, -⟩ := h
    exact hup
  | cons bit path ih =>
    rw [List.reverse_cons, List.append_assoc, List.singleton_append]
    exact ih h.2 ⟨n, h.1, rfl, hup⟩

theorem TreeShape.childOf_lt (htree : TreeShape freq nodes) {p : NodeIdx} (hp : nodes[p].leaf = false) (bit : Bool) :
    childOf nodes p bit < p := by
  obtain ⟨hl, hr⟩ := htree.internal hp
  cases bit with
  | false => exact hl
  | true => exact hr

theorem TreeShape.parentIn_childOf (htree : TreeShape freq nodes) {p : NodeIdx} (hp : nodes[p].leaf = false)
    (bit : Bool) : ParentIn nodes 511 p (childOf nodes p bit) := by
  have hge : 256 ≤ p.val := by
    by_contra hlt
    exact Bool.false_ne_true (hp.symm.trans (htree.1.leaf (Nat.lt_of_not_le hlt)))
  refine ⟨hge, p.isLt, ?_⟩
  cases bit with
  | false => exact .inl rfl
  | true => exact .inr rfl

/-- A node is the child of one node and by one bit only. -/
theorem TreeShape.childOf_inj (htree : TreeShape freq nodes) {p p' : NodeIdx} {bit bit' : Bool}
    (hp : nodes[p].leaf = false) (hp' : nodes[p'].leaf = false) (h : childOf nodes p bit = childOf nodes p' bit') :
    p = p' ∧ bit = bit' := by
  have hparent := htree.parentIn_childOf hp bit
  obtain rfl : p = p' := htree.2.1 _ _ _ hparent (h ▸ htree.parentIn_childOf hp' bit')
  obtain ⟨-, -, -, hne, -⟩ := htree.1.2 p hparent.1 p.isLt
  refine ⟨rfl, ?_⟩
  cases bit <;> cases bit'
  · rfl
  · exact absurd h hne
  · exact absurd h.symm hne
  · rfl

theorem Climbs.unique (htree : TreeShape freq nodes) {up up' : List Bool} (h : Climbs nodes m up)
    (h' : Climbs nodes m up') : up = up' := by
  have hroot {p : NodeIdx} {bit : Bool} (hp : nodes[p].leaf = false) : childOf nodes p bit ≠ 510 := fun hc => by
    have hlt := Fin.lt_def.1 (htree.childOf_lt hp bit)
    rw [hc] at hlt
    exact absurd p.isLt (Nat.not_lt.2 hlt)
  induction up generalizing m up' with
  | nil =>
    cases up' with
    | nil => rfl
    | cons bit' up' =>
      obtain ⟨p, hp, hc, -⟩ := h'
      exact absurd (hc.trans h) (hroot hp)
  | cons bit up ih =>
    obtain ⟨p, hp, hc, hup⟩ := h
    cases up' with
    | nil => exact absurd (hc.trans h') (hroot hp)
    | cons bit' up' =>
      obtain ⟨p', hp', hc', hup'⟩ := h'
      obtain ⟨rfl, rfl⟩ := htree.childOf_inj hp hp' (hc.trans hc'.symm)
      rw [ih hup hup']

/-- There is one path from ROOT to a leaf. -/
theorem LeafPath.unique (htree : TreeShape freq nodes) {path path' : List Bool} (h : LeafPath nodes m 510 path)
    (h' : LeafPath nodes m 510 path') : path = path' := by
  have hrev := (h.climbs (up := []) rfl).unique htree (h'.climbs (up := []) rfl)
  rwa [List.append_nil, List.append_nil, List.reverse_inj] at hrev

end

/-! ### The Kraft sum (R150 (d)) -/

/-- How the whole `2 ^ fuel` of a node comes down to the leaf of `sym`, when each internal node halves it between its
children. -/
def kraftShare (nodes : Vector Node 511) (sym : Byte) : Nat → NodeIdx → Nat
  | 0, n => if n = leafOf sym then 1 else 0
  | fuel + 1, n =>
    if nodes[n].leaf then if n = leafOf sym then 2 ^ (fuel + 1) else 0
    else kraftShare nodes sym fuel nodes[n].left + kraftShare nodes sym fuel nodes[n].right

section
variable {freq : Vector Word 256} {nodes : Vector Node 511} {sym : Byte} {n : NodeIdx}

theorem kraftShare_leaf (hn : nodes[n].leaf = true) (fuel : Nat) :
    kraftShare nodes sym fuel n = if n = leafOf sym then 2 ^ fuel else 0 := by
  cases fuel with
  | zero => rfl
  | succ fuel => exact if_pos hn

theorem kraftShare_internal (hn : nodes[n].leaf = false) (bit : Bool) (fuel : Nat) :
    kraftShare nodes sym (fuel + 1) n =
      kraftShare nodes sym fuel (childOf nodes n bit) + kraftShare nodes sym fuel (childOf nodes n !bit) := by
  have hsplit : kraftShare nodes sym (fuel + 1) n =
      kraftShare nodes sym fuel nodes[n].left + kraftShare nodes sym fuel nodes[n].right :=
    if_neg (ne_true_of_eq_false hn)
  cases bit with
  | false => exact hsplit
  | true => exact hsplit.trans (Nat.add_comm _ _)

/-- A leaf is one symbol's, so what it holds is counted once. -/
theorem sum_symbols_leaf (hn : n.val < 256) (k : Nat) :
    (symbols.map fun sym => if n = leafOf sym then k else 0).sum = k := by
  obtain ⟨own, rfl⟩ := exists_leafOf hn
  rw [List.sum_map_eq_nsmul_single own _ fun sym hne _ => if_neg fun h => hne (leafOf_inj h).symm,
    List.count_eq_one_of_mem symbols_nodup (mem_symbols own), one_smul, if_pos rfl]

/-- Nothing of a node's whole is lost: all of it comes down to the leaves under it. -/
theorem sum_kraftShare (htree : TreeShape freq nodes) (fuel : Nat) (hn : n.val ≤ 255 + fuel) :
    (symbols.map fun sym => kraftShare nodes sym fuel n).sum = 2 ^ fuel := by
  induction fuel generalizing n with
  | zero =>
    have hn256 : n.val < 256 := Nat.lt_succ_of_le hn
    simp only [kraftShare_leaf (htree.1.leaf hn256)]
    exact sum_symbols_leaf hn256 _
  | succ fuel ih =>
    cases hleaf : nodes[n].leaf with
    | true =>
      simp only [kraftShare_leaf hleaf]
      exact sum_symbols_leaf (htree.1.lt_of_leaf n hleaf) _
    | false =>
      have hbelow (bit : Bool) : (childOf nodes n bit).val ≤ 255 + fuel := by
        have := Fin.lt_def.1 (htree.childOf_lt hleaf bit)
        omega
      simp only [kraftShare_internal hleaf false, List.sum_map_add]
      rw [ih (hbelow false), ih (hbelow !false), Nat.pow_succ, Nat.mul_two]

/-- Where no path leads to the leaf of `sym` nothing comes down to it. -/
theorem kraftShare_eq_zero (htree : TreeShape freq nodes) (fuel : Nat)
    (hno : ¬∃ path, LeafPath nodes (leafOf sym) n path) : kraftShare nodes sym fuel n = 0 := by
  have hne {n : NodeIdx} (hno : ¬∃ path, LeafPath nodes (leafOf sym) n path) : n ≠ leafOf sym :=
    fun h => hno ⟨[], h, h ▸ (htree.1.1 sym).1⟩
  induction fuel generalizing n with
  | zero => exact if_neg (hne hno)
  | succ fuel ih =>
    cases hleaf : nodes[n].leaf with
    | true => rw [kraftShare_leaf hleaf, if_neg (hne hno)]
    | false =>
      have hzero (bit : Bool) : kraftShare nodes sym fuel (childOf nodes n bit) = 0 :=
        ih fun ⟨path, hpath⟩ => hno ⟨bit :: path, hleaf, hpath⟩
      rw [kraftShare_internal hleaf false, hzero, hzero]

/-- A single path of `k` bits to the leaf of `sym` brings down `2 ^ (fuel - k)`. -/
theorem kraftShare_path (htree : TreeShape freq nodes) {path : List Bool} {fuel : Nat} (hlen : path.length ≤ fuel)
    (hpath : LeafPath nodes (leafOf sym) n path)
    (honly : ∀ path', LeafPath nodes (leafOf sym) n path' → path' = path) :
    kraftShare nodes sym fuel n = 2 ^ (fuel - path.length) := by
  induction path generalizing n fuel with
  | nil =>
    obtain ⟨rfl, hleaf⟩ := hpath
    exact (kraftShare_leaf hleaf fuel).trans (if_pos rfl)
  | cons bit path ih =>
    obtain ⟨hn, hpath⟩ := hpath
    obtain ⟨fuel, rfl⟩ : ∃ k, fuel = k + 1 := Nat.exists_eq_add_one.2 (Nat.lt_of_lt_of_le (Nat.succ_pos _) hlen)
    have hother : ¬∃ path', LeafPath nodes (leafOf sym) (childOf nodes n !bit) path' := fun ⟨path', h⟩ =>
      Bool.not_ne_self bit (List.cons.inj (honly ((!bit) :: path') ⟨hn, h⟩)).1
    rw [kraftShare_internal hn bit, kraftShare_eq_zero htree fuel hother, Nat.add_zero, List.length_cons,
      Nat.add_sub_add_right]
    exact ih (Nat.le_of_succ_le_succ hlen) hpath fun path' h => (List.cons.inj (honly (bit :: path') ⟨hn, h⟩)).2

end

/-- Settles O23: the whole of ROOT comes down to the leaves, to each by its one path. -/
theorem kraftSumIsOne : Obligations.KraftSumIsOne := by
  intro s t hb hv hroot htree h
  obtain ⟨codes, hexec, hpaths⟩ := exec_deriveCodes hb hv hroot htree
  rw [hexec] at h
  cases h
  rw [← sum_kraftShare htree 255 (n := 510) (by decide)]
  refine congrArg List.sum (List.map_congr_left fun sym _ => ?_)
  obtain ⟨path, hpath, hlen, hcode⟩ := hpaths sym
  change 2 ^ (255 - (getAt codes sym).len.toNat) = _
  rw [hcode, (codeOfPath_fields hlen).1, kraftShare_path htree hlen hpath fun path' h => h.unique htree hpath]

end Sys2Proof.Machine
end

section
/-! SUPPORT. The tree of equal weights (41_tree_builder.md R148): with every counter at one `v` below 2^24 no weight
wraps, the key order is the index order, and the merges are those of the perfect tree. -/

namespace Sys2Proof.Machine

/-! ### The weights of the perfect tree -/

/-- The weight of node `n`, doubled from each level to the next one up. -/
def equalWeight (v : Word) (n : NodeIdx) : Nat := v.toNat * 2 ^ (8 - Nat.log 2 (511 - n.val))

section
variable {v : Word} {n a b : NodeIdx}

theorem equalWeight_leafOf (sym : Byte) : equalWeight v (leafOf sym) = v.toNat := by
  have hlog : Nat.log 2 (511 - sym.toNat) = 8 := Nat.log_eq_of_pow_le_of_lt_pow (by omega) (by omega)
  rw [equalWeight, leafOf_val, hlog, Nat.sub_self, pow_zero, mul_one]

theorem equalWeight_mono (h : a ≤ b) : equalWeight v a ≤ equalWeight v b := by
  have hlog : Nat.log 2 (511 - b.val) ≤ Nat.log 2 (511 - a.val) :=
    Nat.log_mono_right (Nat.sub_le_sub_left (Fin.le_def.1 h) 511)
  exact Nat.mul_le_mul_left _ (Nat.pow_le_pow_right Nat.two_pos (Nat.sub_le_sub_left hlog 8))

/-- Below 2^24 no weight wraps. -/
theorem equalWeight_toNat (hv : v.toNat < 2 ^ 24) : (BitVec.ofNat 32 (equalWeight v n)).toNat = equalWeight v n := by
  have hle : 2 ^ (8 - Nat.log 2 (511 - n.val)) ≤ 2 ^ 8 := Nat.pow_le_pow_right Nat.two_pos (Nat.sub_le _ _)
  have hmul : equalWeight v n ≤ v.toNat * 2 ^ 8 := Nat.mul_le_mul_left _ hle
  exact Nat.mod_eq_of_lt (by omega)

theorem equalWeight_children {l r : NodeIdx} (hn : 256 ≤ n.val) (hl : l.val = 2 * (n.val - 256))
    (hr : r.val = 2 * (n.val - 256) + 1) : equalWeight v n = equalWeight v l + equalWeight v r := by
  have hlast := n.isLt
  have hlevel {m : Nat} (hm : m = 2 * (n.val - 256) ∨ m = 2 * (n.val - 256) + 1) :
      Nat.log 2 (511 - m) = Nat.log 2 (511 - n.val) + 1 := by
    rw [Nat.log_of_one_lt_of_le Nat.one_lt_two (by omega), show (511 - m) / 2 = 511 - n.val by omega]
  have htop : Nat.log 2 (511 - n.val) < 8 := Nat.log_lt_of_lt_pow (by omega) (by omega)
  have hexp : 8 - Nat.log 2 (511 - n.val) = 8 - (Nat.log 2 (511 - n.val) + 1) + 1 := by omega
  rw [equalWeight, equalWeight, equalWeight, hlevel (.inl hl), hlevel (.inr hr), hexp, Nat.pow_succ]
  ring

end

/-! ### The perfect tree of weight `v` -/

/-- The arena is the perfect tree over leaves of weight `v`. -/
def IsEqualTree (v : Word) (nodes : Vector Node 511) : Prop :=
  ∀ n : NodeIdx, nodes[n] = { perfectNode n with weight := BitVec.ofNat 32 (equalWeight v n) }

theorem exists_isEqualTree (v : Word) : ∃ nodes, IsEqualTree v nodes :=
  ⟨.ofFn fun n => { perfectNode n with weight := BitVec.ofNat 32 (equalWeight v n) }, fun n => by simp⟩

section
variable {v : Word} {nodes : Vector Node 511} {n a b l r : NodeIdx} (htree : IsEqualTree v nodes)
include htree

/-- The children do not depend on the weight. -/
theorem IsEqualTree.parentIn_iff {hi : Nat} {p m : NodeIdx} : ParentIn nodes hi p m ↔ ParentIn perfectTree hi p m := by
  simp only [ParentIn, htree p, perfectTree_get]

theorem IsEqualTree.children (hn : 256 ≤ n.val) :
    nodes[n].left.val = 2 * (n.val - 256) ∧ nodes[n].right.val = 2 * (n.val - 256) + 1 := by
  rw [htree n]
  exact perfect_children hn

theorem IsEqualTree.leaf (sym : Byte) : nodes[leafOf sym] = leafNode v := by
  have hnode : perfectNode (leafOf sym) = leafNode 0 := if_pos sym.isLt
  rw [htree (leafOf sym), equalWeight_leafOf, BitVec.ofNat_toNat, BitVec.setWidth_eq, hnode]
  rfl

theorem IsEqualTree.internal (hn : 256 ≤ n.val) : nodes[n].leaf = false := by
  rw [htree n, perfectNode, if_neg (Nat.not_lt.2 hn)]

theorem IsEqualTree.of_internal (hn : nodes[n].leaf = false) : 256 ≤ n.val := by
  by_contra hlt
  obtain ⟨sym, rfl⟩ := exists_leafOf (Nat.lt_of_not_le hlt)
  rw [htree.leaf] at hn
  cases hn

/-- When `n` is made the free nodes are those from its left child on. -/
theorem IsEqualTree.freeBelow_iff (hn : 256 ≤ n.val) :
    FreeBelow nodes n a ↔ a < n ∧ 2 * (n.val - 256) ≤ a.val := by
  refine and_congr_right fun han => ?_
  simp only [htree.parentIn_iff]
  constructor
  · intro hno
    by_contra hlt
    have hlast := n.isLt
    obtain ⟨p, hp⟩ := (perfectTree_shape.2.2 a).1 (by omega)
    have hval := perfect_parent hp
    exact hno ⟨p, hp.1, by omega, hp.2.2⟩
  · rintro hle ⟨p, hp⟩
    have hval := perfect_parent hp
    have hlt := hp.2.1
    omega

theorem IsEqualTree.weight_eq (hn : 256 ≤ n.val) (hl : l.val = 2 * (n.val - 256))
    (hr : r.val = 2 * (n.val - 256) + 1) : nodes[n].weight = nodes[l].weight + nodes[r].weight := by
  simp only [htree n, htree l, htree r, equalWeight_children hn hl hr, BitVec.ofNat_add]

/-- The key order is the index order. -/
theorem IsEqualTree.keyBefore (hv : v.toNat < 2 ^ 24) (h : a < b) : KeyBefore nodes a b := by
  simp only [KeyBefore, htree a, htree b, equalWeight_toNat hv]
  rcases Nat.lt_or_eq_of_le (equalWeight_mono (v := v) (le_of_lt h)) with hlt | heq
  · exact .inl hlt
  · exact .inr ⟨by rw [heq], h⟩

/-- The two children are the first two of the free nodes. -/
theorem IsEqualTree.twoLeast (hv : v.toNat < 2 ^ 24) (hn : 256 ≤ n.val) (hl : l.val = 2 * (n.val - 256))
    (hr : r.val = 2 * (n.val - 256) + 1) : TwoLeast nodes (FreeBelow nodes n) l r := by
  have hlast := n.isLt
  simp only [TwoLeast, htree.freeBelow_iff hn]
  refine ⟨⟨Fin.lt_def.2 (by omega), by omega⟩, ⟨Fin.lt_def.2 (by omega), by omega⟩,
    htree.keyBefore hv (Fin.lt_def.2 (by omega)), fun m hm hml hmr => htree.keyBefore hv (Fin.lt_def.2 ?_)⟩
  have hl' : m.val ≠ l.val := fun h => hml (Fin.ext h)
  have hr' : m.val ≠ r.val := fun h => hmr (Fin.ext h)
  omega

theorem IsEqualTree.isMerge (hv : v.toNat < 2 ^ 24) (hn : 256 ≤ n.val) : IsMerge nodes n := by
  obtain ⟨hl, hr⟩ := htree.children hn
  refine ⟨?_, htree.twoLeast hv hn hl hr⟩
  rw [mergeNode, ← htree.weight_eq hn hl hr, ← htree.internal hn]

theorem IsEqualTree.mergedUpTo {freq : Vector Word 256} (hv : v.toNat < 2 ^ 24) (hfreq : ∀ sym, getAt freq sym = v) :
    MergedUpTo freq nodes 511 :=
  ⟨fun sym => by rw [hfreq, htree.leaf], fun _ hn _ => htree.isMerge hv hn⟩

end

/-- From equal counters below 2^24 BUILD_TREE's merges give the perfect tree. -/
theorem isEqualTree_treeOf {freq : Vector Word 256} {v : Word} (hv : v.toNat < 2 ^ 24)
    (hfreq : ∀ sym, getAt freq sym = v) : IsEqualTree v (treeOf freq) := by
  obtain ⟨nodes, htree⟩ := exists_isEqualTree v
  rwa [(treeOf_merged freq).unique (htree.mergedUpTo hv hfreq)]

/-! ### The codes of the perfect tree -/

theorem bitsToNat_cons (bit : Bool) (path : List Bool) :
    bitsToNat (bit :: path) = bit.toNat * 2 ^ path.length + bitsToNat path := by
  induction path using List.reverseRecOn with
  | nil => cases bit <;> rfl
  | append_singleton path last ih =>
    rw [← List.cons_append, bitsToNat_concat, bitsToNat_concat, ih, Nat.bit_val, Nat.bit_val, List.length_append,
      List.length_singleton, Nat.pow_succ]
    ring

section
variable {v : Word} {nodes : Vector Node 511} {n : NodeIdx} (htree : IsEqualTree v nodes)
include htree

/-- Each bit doubles a node's distance from 512 and takes itself off it. -/
theorem IsEqualTree.childOf_distance (hn : 256 ≤ n.val) (bit : Bool) :
    512 - (childOf nodes n bit).val + bit.toNat = 2 * (512 - n.val) := by
  obtain ⟨hl, hr⟩ := htree.children hn
  have hlast := n.isLt
  cases bit with
  | false =>
    rw [show childOf nodes n false = nodes[n].left from rfl, hl, Bool.toNat_false]
    omega
  | true =>
    rw [show childOf nodes n true = nodes[n].right from rfl, hr, Bool.toNat_true]
    omega

theorem IsEqualTree.leafPath_distance {m : NodeIdx} {path : List Bool} (h : LeafPath nodes m n path) :
    512 - m.val + bitsToNat path = 2 ^ path.length * (512 - n.val) := by
  induction path generalizing n with
  | nil =>
    obtain ⟨rfl, -⟩ := h
    rw [List.length_nil, Nat.pow_zero, Nat.one_mul]
    rfl
  | cons bit path ih =>
    obtain ⟨hn, hpath⟩ := h
    calc 512 - m.val + bitsToNat (bit :: path)
        = 2 ^ path.length * (512 - (childOf nodes n bit).val) + bit.toNat * 2 ^ path.length := by
          rw [bitsToNat_cons, ← ih hpath]
          ring
      _ = 2 ^ path.length * (512 - (childOf nodes n bit).val + bit.toNat) := by ring
      _ = 2 ^ (bit :: path).length * (512 - n.val) := by
          rw [htree.childOf_distance (htree.of_internal hn), List.length_cons, Nat.pow_succ]
          ring

/-- A symbol's path in the perfect tree is its eight bits (R148). -/
theorem IsEqualTree.path_eq {sym : Byte} {path : List Bool} (h : LeafPath nodes (leafOf sym) 510 path) :
    path.length = 8 ∧ bitsToNat path = sym.toNat := by
  have hend : 512 - sym.toNat + bitsToNat path = 2 ^ path.length * 2 := htree.leafPath_distance h
  have hlt := bitsToNat_lt path
  have hsym := sym.isLt
  have hlen : path.length = 8 := by
    rcases Nat.lt_trichotomy path.length 8 with hlo | heq | hhi
    · have := Nat.pow_le_pow_right Nat.two_pos (Nat.le_of_lt_succ hlo)
      omega
    · exact heq
    · have := Nat.pow_le_pow_right Nat.two_pos (Nat.succ_le_of_lt hhi)
      omega
  rw [hlen] at hend
  exact ⟨hlen, by omega⟩

end

/-- Settles O24: the merges give the perfect tree, in which a symbol's path is its eight bits. -/
theorem equalWeightsGivePerfectTree : Obligations.EqualWeightsGivePerfectTree := by
  intro s v hb hv hfreq
  have hbuild := exec_buildTree hb
  have hshape := treeOf_shape s.freq
  have htree := isEqualTree_treeOf hv hfreq
  generalize treeOf s.freq = nodes at hbuild hshape htree
  obtain ⟨codes, hderive, hpaths⟩ := exec_deriveCodes (s := withTree nodes (completed s)) rfl rfl rfl hshape
  refine ⟨_, _, hbuild, hderive, fun k hk => ?_, fun sym => ?_⟩
  · have h := htree.children (n := ⟨256 + k, by omega⟩) (Nat.le_add_right _ _)
    rw [Nat.add_sub_cancel_left] at h
    exact h
  · obtain ⟨path, hpath, -, hcode⟩ := hpaths sym
    obtain ⟨hlen, hbits⟩ := htree.path_eq hpath
    change (getAt codes sym).len = 8 ∧ (getAt codes sym).val = sym.setWidth 256
    rw [hcode, codeOfPath, hlen, hbits, BitVec.ofNat_toNat]
    exact ⟨rfl, rfl⟩

end Sys2Proof.Machine
end

section
/-! SUPPORT. The encoder's primitives (42_encoder.md R171 to R175): what WRITE_HEADER and ENCODE_BODY append to SINK. -/

namespace Sys2Proof.Machine

/-! ### The header (30_encoding.md R111, R171, R173) -/

theorem getAt_ofNat {α : Type} (t : Vector α 256) (n : Fin 256) : getAt t (BitVec.ofNat 8 n.val) = t[n] := by
  simp [getAt]

theorem headerBytesOf_length (freq : Vector Word 256) : (headerBytesOf freq).length = 1024 := by
  rw [headerBytesOf_eq, List.length_map, List.length_range']

theorem headerBytesOf_getD (freq : Vector Word 256) (rest : List Byte) {n : Nat} (hn : n < 1024) :
    (headerBytesOf freq ++ rest).getD n 0 = headerByteAt freq n := by
  rw [List.getD_append _ _ _ _ (by rwa [headerBytesOf_length]), headerBytesOf_eq, List.getD_eq_getElem?_getD,
    List.getElem?_map, List.getElem?_range' hn]
  simp

/-- The four bytes of a counter, most significant first, are the counter. -/
theorem counterByte_append (v : Word) :
    counterByte v 0 ++ counterByte v 1 ++ counterByte v 2 ++ counterByte v 3 = v := by
  change v.extractLsb' 24 8 ++ v.extractLsb' 16 8 ++ v.extractLsb' 8 8 ++ v.extractLsb' 0 8 = v
  rw [BitVec.extractLsb'_append_extractLsb'_eq_extractLsb' (show 24 = 16 + 8 from rfl),
    BitVec.extractLsb'_append_extractLsb'_eq_extractLsb' (show 16 = 8 + 8 from rfl),
    BitVec.extractLsb'_append_extractLsb'_eq_extractLsb' (show 8 = 0 + 8 from rfl)]
  exact BitVec.extractLsb'_eq_self

/-- Counter `n` is read back from a header, whatever follows it. -/
theorem headerCounter_headerBytesOf (freq : Vector Word 256) (rest : List Byte) (n : Fin 256) :
    headerCounter (headerBytesOf freq ++ rest) n.val = freq[n] := by
  have hbyte (k : Nat) (hk : k < 4) :
      (headerBytesOf freq ++ rest).getD (4 * n.val + k) 0 = counterByte freq[n] k := by
    rw [headerBytesOf_getD freq rest (by omega), headerByteAt, show (4 * n.val + k) / 4 = n.val by omega,
      show (4 * n.val + k) % 4 = k by omega, getAt_ofNat]
  have hfirst := hbyte 0 (by omega)
  rw [Nat.add_zero] at hfirst
  rw [headerCounter, hfirst, hbyte 1 (by omega), hbyte 2 (by omega), hbyte 3 (by omega)]
  exact counterByte_append _

/-! ### Emitted bytes and passed checks -/

theorem outWriteAll_nil (s : State) : outWriteAll [] s = s := by
  simp [outWriteAll]

theorem outWriteAll_append (bytes rest : List Byte) (s : State) :
    outWriteAll (bytes ++ rest) s = outWriteAll rest (outWriteAll bytes s) := by
  induction bytes generalizing s with
  | nil => rw [List.nil_append, outWriteAll_nil]
  | cons b bytes ih => rw [List.cons_append, outWriteAll_cons, outWriteAll_cons, ih]

theorem outWriteAll_singleton (b : Byte) (s : State) : outWriteAll [b] s = outWrite b s := by
  rw [outWriteAll_cons, outWriteAll_nil]

/-- OUT_COUNT is 0 after acceptance, so it comes to hold the number of bytes emitted (10_state.md R49). -/
theorem outWriteAll_of_outCount_eq_zero (bytes : List Byte) {s : State} (h : s.outCount = 0) :
    outWriteAll bytes s = { s with sink := s.sink ++ bytes, outCount := BitVec.ofNat 32 bytes.length } := by
  rw [outWriteAll, h, show (0 : Word) = 0#32 from rfl, BitVec.zero_add]

@[simp] theorem control_outWriteAll (bytes : List Byte) (s : State) : control (outWriteAll bytes s) = control s := rfl

theorem require_of_set {flag : Bool} (h : flag = true) (missing : Word) (k : State → Result) (s : State) :
    require flag missing k s = k s := by
  rw [h, require_set]

/-! ### WRITE_HEADER (R171) -/

/-- The header and the `last_bits` byte, which is the sum mod 8 (R171, R172). -/
def fileHeader (codes : Vector Code 256) (freq : Vector Word 256) : List Byte :=
  headerBytesOf freq ++ [BitVec.ofNat 8 (weightedLength codes freq % 8)]

/-- What WRITE_HEADER adds: the header and `last_bits` in SINK, and LAST_BITS. -/
def withHeader (s : State) : State := headerSum (outWriteAll (fileHeader s.codes s.freq) s)

/-- As a byte, the low three bits of a number are the number mod 8. -/
theorem lastBits_byte (n : Nat) : (BitVec.ofNat 3 n).setWidth 8 = BitVec.ofNat 8 (n % 8) := by
  apply BitVec.eq_of_toNat_eq
  simp

/-- LAST_BITS has three bits, so it holds the sum mod 8. -/
theorem lastBits_mod (n : Nat) : BitVec.ofNat 3 n = BitVec.ofNat 3 (n % 8) := by
  apply BitVec.eq_of_toNat_eq
  simp

theorem outWrite_headerSum (b : Byte) (s : State) : outWrite b (headerSum s) = headerSum (outWrite b s) := by
  simp only [outWrite, headerSum]

theorem headerLast_headerSum (s : State) : headerLast (headerSum s) =
    finishElement (headerSum (outWrite (BitVec.ofNat 8 (weightedLength s.codes s.freq % 8)) s)) := by
  have hbyte : (headerSum s).lastBits.setWidth 8 = BitVec.ofNat 8 (weightedLength s.codes s.freq % 8) :=
    lastBits_byte _
  rw [headerLast, hbyte, outWrite_headerSum]

theorem writeHeaderBody_eq {s : State} (hc : s.codesValid = true) :
    writeHeaderBody s = .next (finishElement (withHeader s)) := by
  refine (require_of_set hc _ _ s).trans ?_
  rw [headerLast_headerSum, outWriteAll_codes, outWriteAll_freq, ← outWriteAll_singleton, ← outWriteAll_append,
    ← fileHeader, ← withHeader]

theorem control_withHeader (s : State) : control (withHeader s) = control s := by
  rw [withHeader, control_headerSum, control_outWriteAll]

theorem complete_headerSum (s : State) : complete (headerSum s) = headerSum (complete s) := rfl

theorem complete_outWriteAll (bytes : List Byte) (s : State) :
    complete (outWriteAll bytes s) = outWriteAll bytes (complete s) := rfl

theorem complete_withHeader (s : State) : complete (withHeader s) = withHeader (complete s) := by
  rw [withHeader, complete_headerSum, complete_outWriteAll]
  rfl

theorem exec_writeHeader {s : State} (hb : s.busy = false) (hc : s.codesValid = true) :
    exec .writeHeader s = .next (withHeader (completed s)) := by
  have hbody : elementBody .writeHeader (accept .writeHeader s) =
      .next (finishElement (withHeader (accept .writeHeader s))) := writeHeaderBody_eq (s := accept .writeHeader s) hc
  rw [exec_primitive (by decide) rfl hb, hbody, finishElement_primitive (i := .writeHeader) rfl (control_withHeader _),
    complete_withHeader, complete_accept]

/-- Settles O25: the element appends the header and `last_bits`, and completes the command. -/
theorem writeHeaderEmitsHeader : Obligations.WriteHeaderEmitsHeader := by
  intro s hb hc
  refine ⟨headerBytesOf s.freq, ?_, headerBytesOf_length _, fun n => ?_⟩
  · rw [exec_writeHeader hb hc, withHeader, outWriteAll_of_outCount_eq_zero _ rfl, fileHeader, List.length_append,
      headerBytesOf_length, ← List.append_assoc, headerSum, lastBits_mod]
    rfl
  · simpa using headerCounter_headerBytesOf s.freq [] n

/-! ### The body (R77, R78, R114, R174) -/

theorem packBits_nil : packBits [] = [] := rfl

/-- The first eight bits, or all where there are fewer, are the first body byte. -/
theorem packBits_of_ne_nil {bits : List Bool} (h : bits ≠ []) :
    packBits bits = bitsToByte (bits.take 8) :: packBits (bits.drop 8) := by
  have hpos : 0 < bits.length := List.length_pos_iff.2 h
  have hcount : (bits.length + 7) / 8 = ((bits.drop 8).length + 7) / 8 + 1 := by
    rw [List.length_drop]
    omega
  rw [packBits, packBits, hcount, List.range_succ_eq_map, List.map_cons, List.map_map]
  simp [Function.comp_def, List.drop_drop, Nat.mul_succ, Nat.add_comm]

theorem packBits_length (bits : List Bool) : (packBits bits).length = (bits.length + 7) / 8 := by
  rw [packBits, List.length_map, List.length_range]

theorem bitstream_nil (codes : Vector Code 256) : bitstream codes [] = [] := rfl

theorem bitstream_cons (codes : Vector Code 256) (b : Byte) (bytes : List Byte) :
    bitstream codes (b :: bytes) = codeBits (getAt codes b) ++ bitstream codes bytes := List.flatMap_cons

/-- What ENCODE_BODY adds when it reads `bytes`: the bits held in ACC and the codes of `bytes`, packed. -/
def withBody (bytes : List Byte) (s : State) : State :=
  { outWriteAll (packBits (s.acc ++ bitstream s.codes bytes)) s with
    acc := [], inPos := s.inPos + bytes.length }

/-- ENCODE_BODY begins with ACC empty (R174). -/
def emptyAcc (s : State) : State := { s with acc := [] }

/-- A whole byte may leave ACC before the rest is read. -/
theorem withBody_emitGroup {s : State} (h : 8 ≤ s.acc.length) (bytes : List Byte) :
    withBody bytes (emitGroup s) = withBody bytes s := by
  have hne : s.acc ++ bitstream s.codes bytes ≠ [] := by
    intro hnil
    rw [(List.append_eq_nil_iff.1 hnil).1] at h
    exact absurd h (by decide)
  rw [withBody, withBody, packBits_of_ne_nil hne, outWriteAll_cons, List.take_append_of_le_length h,
    List.drop_append_of_le_length h]
  rfl

theorem withBody_emitGroups (k : Nat) {s : State} (h : 8 * k ≤ s.acc.length) (bytes : List Byte) :
    withBody bytes (emitGroups k s) = withBody bytes s := by
  induction k generalizing s with
  | zero => rfl
  | succ k ih =>
    have hdrop : (emitGroup s).acc.length = s.acc.length - 8 := List.length_drop
    rw [emitGroups, ih (by omega), withBody_emitGroup (by omega)]

theorem emitGroups_acc_length (k : Nat) (s : State) : (emitGroups k s).acc.length = s.acc.length - 8 * k := by
  induction k generalizing s with
  | zero => rfl
  | succ k ih =>
    have hdrop : (emitGroup s).acc.length = s.acc.length - 8 := List.length_drop
    rw [emitGroups, ih, hdrop]
    omega

theorem withBody_packByte (b : Byte) (bytes : List Byte) (s : State) :
    withBody bytes (packByte b (consume s)) = withBody (b :: bytes) s := by
  have hpos : s.inPos + 1 + bytes.length = s.inPos + (b :: bytes).length := by
    rw [List.length_cons]
    omega
  rw [withBody, withBody, bitstream_cons, ← List.append_assoc, ← hpos]
  rfl

/-- At the end of stream ACC holds less than a byte, which is the final partial byte. -/
theorem packEnd_eq {s : State} (h : s.acc.length < 8) : packEnd s = finishElement (withBody [] s) := by
  by_cases hacc : s.acc = []
  · have hbody : withBody [] s = s := by
      rw [withBody, bitstream_nil, List.append_nil, hacc, packBits_nil, outWriteAll_nil, ← hacc]
      rfl
    rw [packEnd, if_pos (by simpa using hacc), hbody]
  · have hpack : packBits s.acc = [bitsToByte s.acc] := by
      rw [packBits_of_ne_nil hacc, List.take_of_length_le h.le, List.drop_of_length_le h.le, packBits_nil]
    have hbody : withBody [] s = { outWrite (bitsToByte s.acc) s with acc := [] } := by
      rw [withBody, bitstream_nil, List.append_nil, hpack, outWriteAll_singleton]
      rfl
    rw [packEnd, if_neg (by simpa using hacc), hbody]
    rfl

theorem packLoop_eq (bytes : List Byte) {s : State} (h : s.acc.length < 8) :
    packLoop bytes s = finishElement (withBody bytes s) := by
  induction bytes generalizing s with
  | nil => exact packEnd_eq h
  | cons b rest ih =>
    have hstep : packLoop (b :: rest) s =
        packLoop rest (emitGroups ((packByte b (consume s)).acc.length / 8) (packByte b (consume s))) := rfl
    rw [hstep, ih (by rw [emitGroups_acc_length]; omega), withBody_emitGroups _ (Nat.mul_div_le _ _),
      withBody_packByte]

theorem encodeBodyBody_eq {s : State} (hc : s.codesValid = true) :
    encodeBodyBody s = .next (finishElement (withBody (unread s) (emptyAcc s))) := by
  refine (require_of_set hc _ _ s).trans ?_
  rw [packLoop_eq (unread s) (s := { s with acc := [] }) (by simp), emptyAcc]

theorem exec_encodeBody {s : State} (hb : s.busy = false) (hc : s.codesValid = true) :
    exec .encodeBody s = .next (withBody (unread s) (emptyAcc (completed s))) := by
  have hend (bytes : List Byte) : finishElement (withBody bytes (emptyAcc (accept .encodeBody s))) =
      withBody bytes (emptyAcc (completed s)) := finishElement_primitive (i := .encodeBody) (s := s) rfl rfl
  rw [exec_primitive (by decide) rfl hb]
  exact (encodeBodyBody_eq (s := accept .encodeBody s) hc).trans (congrArg Host.Outcome.next (hend _))

/-- Settles O26: the loop packs the codes of the unread bytes, and the element completes the command. -/
theorem encodeBodyPacksBitstream : Obligations.EncodeBodyPacksBitstream := by
  intro s hb hc
  rw [exec_encodeBody hb hc, withBody, outWriteAll_of_outCount_eq_zero _ rfl, packBits_length]
  rfl

end Sys2Proof.Machine
end

section
/-! SUPPORT. The macro ENCODE (42_encoder.md R177, R178): its seven elements run one after another, and emit the file of
the whole source. -/

namespace Sys2Proof.Machine

/-! ### The codes and the length of the file (R113, R178) -/

/-- The paths in a full tree are determined by the tree, so one code table holds them all. -/
theorem PathCodes.unique {freq : Vector Word 256} {nodes : Vector Node 511} {codes codes' : Vector Code 256}
    (htree : TreeShape freq nodes) (h : PathCodes nodes codes) (h' : PathCodes nodes codes') : codes = codes' := by
  refine vector_ext_getAt fun sym => ?_
  obtain ⟨path, hpath, -, hcode⟩ := h sym
  obtain ⟨path', hpath', -, hcode'⟩ := h' sym
  rw [hcode, hcode', hpath.unique htree hpath']

/-- Whatever the code table held, the visit of a full tree leaves the tree's codes. -/
theorem visit_eq_codesOf {freq : Vector Word 256} {nodes : Vector Node 511} (htree : TreeShape freq nodes)
    (t : Vector Code 256) : visit nodes Config.maxCodeLen 510 [] t = some (codesOf nodes) := by
  obtain ⟨codes, hvisit⟩ := visit_tree_isSome htree t
  obtain ⟨codes', hvisit'⟩ := visit_tree_isSome htree (Vector.replicate 256 ⟨0, 0⟩)
  have hcodes : codesOf nodes = codes' := by rw [codesOf, hvisit', Option.getD_some]
  rw [hvisit, hcodes, (pathCodes_of_visit htree hvisit).unique htree (pathCodes_of_visit htree hvisit')]

/-- What DERIVE_CODES adds: the codes of the tree (R149). -/
def withCodes (s : State) : State := { s with codesValid := true, codes := codesOf s.nodes }

theorem deriveBody_eq {s : State} (hv : s.treeValid = true) (hroot : s.root = 510) (htree : TreeShape s.freq s.nodes) :
    deriveBody s = .next (finishElement (withCodes s)) := by
  have hvisit : visit s.nodes Config.maxCodeLen s.root [] s.codes = some (codesOf s.nodes) := by
    rw [hroot, visit_eq_codesOf htree]
  refine (require_of_set hv _ _ s).trans ?_
  rw [hvisit]
  rfl

/-- A sum over the bytes of a list, gathered by symbol. -/
theorem sum_map_eq_sum_symbols (f : Byte → Nat) (bytes : List Byte) :
    (bytes.map f).sum = (symbols.map fun sym => f sym * bytes.count sym).sum := by
  rw [← List.sum_toFinset _ symbols_nodup, Finset.sum_list_map_count]
  refine (Finset.sum_congr rfl fun sym _ => Nat.mul_comm _ _).trans (Finset.sum_subset ?_ fun sym _ hsym => ?_)
  · exact fun sym _ => List.mem_toFinset.2 (mem_symbols sym)
  · rw [List.count_eq_zero.2 fun hmem => hsym (List.mem_toFinset.2 hmem), Nat.mul_zero]

/-- The bitstream has Σ LEN × FREQ bits when FREQ holds the true counts (R172, R178). -/
theorem bitstream_length (codes : Vector Code 256) {bytes : List Byte} (hlen : bytes.length < 2 ^ 32) :
    (bitstream codes bytes).length = weightedLength codes (countsOf bytes) := by
  simp only [bitstream, weightedLength, List.length_flatMap, codeBits_length, getAt_countsOf_toNat hlen]
  exact sum_map_eq_sum_symbols _ bytes

theorem fileOf_eq {bytes : List Byte} (hlen : bytes.length < 2 ^ 32) :
    fileOf bytes = fileHeader (codesFor bytes) (countsOf bytes) ++ packBits (bitstream (codesFor bytes) bytes) := by
  rw [fileHeader, ← bitstream_length _ hlen]
  rfl

theorem fileHeader_length (codes : Vector Code 256) (freq : Vector Word 256) :
    (fileHeader codes freq).length = 1025 := by
  rw [fileHeader, List.length_append, headerBytesOf_length, List.length_singleton]

theorem fileOf_length {bytes : List Byte} (hlen : bytes.length < 2 ^ 32) :
    (fileOf bytes).length = 1025 + (weightedLength (codesFor bytes) (countsOf bytes) + 7) / 8 := by
  rw [fileOf_eq hlen, List.length_append, fileHeader_length, packBits_length, bitstream_length _ hlen]

/-- The file's counters are the true counts (R143, R178). -/
theorem headerCounter_fileOf {bytes : List Byte} (hlen : bytes.length < 2 ^ 32) (n : Fin 256) :
    (headerCounter (fileOf bytes) n.val).toNat = bytes.count (BitVec.ofNat 8 n.val) := by
  rw [fileOf_eq hlen, fileHeader, List.append_assoc, headerCounter_headerBytesOf, ← getAt_ofNat,
    getAt_countsOf_toNat hlen]

/-! ### ENCODE (R106, R177) -/

/-- The position after an element: the next one, `e`, of the macro starts (R106). -/
def nextElement (e : Instr) (s : State) : State := enterElement e { s with mstep := s.mstep + 1 }

/-- A command runs, and `rest` are its elements after the present one. -/
def RunsBefore (rest : List Instr) (s : State) : Prop := s.busy = true ∧ laterElements s = rest

theorem runsBefore_accept (i : Instr) (s : State) : RunsBefore (expansion i).tail (accept i s) :=
  ⟨rfl, laterElements_accept i s⟩

theorem RunsBefore.of_control {rest : List Instr} {s u : State} (h : RunsBefore rest s) (hc : control u = control s) :
    RunsBefore rest u :=
  ⟨busy_of_control hc h.1, (laterElements_of_control hc).trans h.2⟩

theorem RunsBefore.nextElement {e : Instr} {rest : List Instr} {s : State} (h : RunsBefore (e :: rest) s) :
    RunsBefore rest (nextElement e s) :=
  ⟨h.1, laterElements_next h.2⟩

/-- An element that ends where another one follows leads on to that one (R106). -/
theorem runElements_finish {e e' : Instr} {rest : List Instr} {s u : State} {r : Result}
    (h : RunsBefore (e' :: rest) s) (hbody : elementBody e s = .next (finishElement u)) (hc : control u = control s)
    (hrest : RunsBefore rest (nextElement e' u) →
      runElements ((e' :: rest).map elementBody) (nextElement e' u) = r) :
    runElements ((e :: e' :: rest).map elementBody) s = r := by
  have hu := h.of_control hc
  have hnext : finishElement u = nextElement e' u := by rw [finishElement, hu.2]; rfl
  rw [List.map_cons, runElements_cons_next hbody, hnext]
  exact (if_pos hu.1).trans (hrest hu.nextElement)

/-- The last element of a command completes it (R25). -/
theorem runElements_last {e : Instr} {s u : State} (h : RunsBefore [] s)
    (hbody : elementBody e s = .next (finishElement u)) (hc : control u = control s) :
    runElements [elementBody e] s = .next (complete u) := by
  rw [runElements_single, hbody, finishElement_last (h.of_control hc).2]

/-! Completion ends the position and leaves the data, so it may come before what an element adds to the data. -/

section
variable (s : State)

theorem complete_nextElement (e : Instr) : complete (nextElement e s) = complete s := rfl

theorem complete_withCounts (bytes : List Byte) : complete (withCounts bytes s) = withCounts bytes (complete s) := rfl

theorem complete_withTree (nodes : Vector Node 511) : complete (withTree nodes s) = withTree nodes (complete s) := rfl

theorem complete_withCodes : complete (withCodes s) = withCodes (complete s) := rfl

theorem complete_withBody (bytes : List Byte) : complete (withBody bytes s) = withBody bytes (complete s) := rfl

theorem complete_emptyAcc : complete (emptyAcc s) = emptyAcc (complete s) := rfl

end

theorem withHeader_codesValid (s : State) : (withHeader s).codesValid = s.codesValid := by
  rw [withHeader, headerSum, outWriteAll_codesValid]

theorem unread_withHeader (s : State) : unread (withHeader s) = unread s := by
  rw [unread, withHeader, headerSum, outWriteAll_src, outWriteAll_inPos, unread]

theorem control_withBody (bytes : List Byte) (s : State) : control (withBody bytes (emptyAcc s)) = control s := rfl

/-- ENCODE from a tree that is built: its last three elements emit the header and the body (R177). -/
theorem runElements_emit {s : State} (h : RunsBefore [.writeHeader, .encodeBody] s) (hv : s.treeValid = true)
    (hroot : s.root = 510) (htree : TreeShape s.freq s.nodes) :
    runElements ([.deriveCodes, .writeHeader, .encodeBody].map elementBody) s =
      .next (withBody (unread s) (emptyAcc (withHeader (withCodes (complete s))))) := by
  have hbody {t : State} (hc : t.codesValid = true) (hu : unread t = unread s) :
      elementBody .encodeBody t = .next (finishElement (withBody (unread s) (emptyAcc t))) := hu ▸ encodeBodyBody_eq hc
  refine runElements_finish h (u := withCodes s) (deriveBody_eq hv hroot htree) rfl fun h => ?_
  refine runElements_finish h (u := withHeader _) (writeHeaderBody_eq rfl) (control_withHeader _) fun h => ?_
  refine (runElements_last h (hbody (withHeader_codesValid _) (unread_withHeader _)) (control_withBody _ _)).trans ?_
  simp only [complete_withBody, complete_emptyAcc, complete_nextElement, complete_withHeader, complete_withCodes]

/-- The data after COUNT, BUILD_TREE and DERIVE_CODES of the whole source: its counts, the tree `nodes` and its codes,
with the source rewound before and after COUNT (R177). -/
def withCodesOfSource (nodes : Vector Node 511) (s : State) : State :=
  withCodes (withTree nodes (rewindInput (withCounts s.src (rewindInput s))))

/-- ENCODE runs its seven elements, each from what the one before it left (R177). -/
theorem exec_encode {s : State} (hb : s.busy = false) (hlen : s.src.length < 2 ^ 32) :
    exec .encode s =
      .next (withBody s.src (emptyAcc (withHeader
        (withCodesOfSource (treeOf (countsOf s.src)) (completed s))))) := by
  have hbuild {t : State} (ht : t.freq = countsOf s.src) :
      elementBody .buildTree t = .next (finishElement (withTree (treeOf (countsOf s.src)) t)) := ht ▸ buildBody_eq t
  have htree := treeOf_shape (countsOf s.src)
  generalize treeOf (countsOf s.src) = nodes at hbuild htree ⊢
  rw [exec_eq_issue (by decide), issue_idle hb]
  refine runElements_finish (runsBefore_accept .encode s) (u := rewindInput _) rfl rfl fun h => ?_
  refine runElements_finish h (u := withCounts s.src _) (countBody_counts rfl hlen) rfl fun h => ?_
  refine runElements_finish h (u := rewindInput _) rfl rfl fun h => ?_
  refine runElements_finish h (u := withTree nodes _) (hbuild rfl) rfl fun h => ?_
  refine (runElements_emit h rfl rfl htree).trans ?_
  simp only [complete_withTree, complete_rewindInput, complete_withCounts, complete_nextElement, complete_accept]
  rfl

/-- The header and the body together, from an empty OUT_COUNT. -/
theorem withBody_withHeader (bytes : List Byte) {s : State} (h : s.outCount = 0) :
    withBody bytes (emptyAcc (withHeader s)) =
      { s with
        lastBits := BitVec.ofNat 3 (weightedLength s.codes s.freq), acc := [], inPos := s.inPos + bytes.length
        sink := s.sink ++ (fileHeader s.codes s.freq ++ packBits (bitstream s.codes bytes))
        outCount := BitVec.ofNat 32 (fileHeader s.codes s.freq ++ packBits (bitstream s.codes bytes)).length } := by
  simp only [withBody, emptyAcc, withHeader, headerSum, outWriteAll, List.nil_append, List.append_assoc,
    List.length_append, BitVec.ofNat_add, BitVec.ofNat_eq_ofNat, BitVec.zero_add, h]

/-- Settles O27: the seven elements leave the codes of the source's own tree, and emit its file. -/
theorem encodeEmitsFile : Obligations.EncodeEmitsFile := by
  intro s hb hlen
  refine ⟨?_, fileOf_length hlen, headerCounter_fileOf hlen⟩
  rw [exec_encode hb hlen, withBody_withHeader _ rfl, bitstream_length _ hlen, ← lastBits_mod, fileOf_eq hlen]
  unfold codesFor
  generalize treeOf (countsOf s.src) = nodes
  refine ⟨Config.freeNext s.draws, s.draws + 1, ?_⟩
  simp only [withCodesOfSource, withCodes, withTree, releaseNext, rewindInput, withCounts, completed, Nat.zero_add]

end Sys2Proof.Machine
end

section
/-! SUPPORT. READ_HEADER (43_decoder.md R191, R192): the counters it has written after each header byte, and how it
ends. -/

namespace Sys2Proof.Machine

/-! ### A counter byte by byte (20_memory.md R76, R192) -/

/-- Shifting a byte into a counter appends it to the bytes the counter holds, the first most significant. -/
theorem shiftInByte_setWidth {w : Nat} (v : BitVec w) (b : Byte) :
    shiftInByte (v.setWidth 32) b = (v ++ b).setWidth 32 := by
  refine BitVec.eq_of_getLsbD_eq fun i hi => ?_
  by_cases h8 : i < 8
  · simp [shiftInByte, BitVec.getLsbD_append, hi, h8]
  · have hb : b.getLsbD i = false := BitVec.getLsbD_of_ge b i (Nat.le_of_not_lt h8)
    simp [shiftInByte, BitVec.getLsbD_append, hi, h8, hb]

theorem shiftInByte_four (a b c d : Byte) :
    shiftInByte (shiftInByte (shiftInByte (shiftInByte 0 a) b) c) d = a ++ b ++ c ++ d := by
  have hfirst : shiftInByte 0 a = a.setWidth 32 := by simp [shiftInByte]
  rw [hfirst, shiftInByte_setWidth, shiftInByte_setWidth, shiftInByte_setWidth]
  exact BitVec.setWidth_eq _

/-- What the sequencer holds of the counter that header byte `n` continues. -/
def counterPart (bytes : List Byte) (n : Nat) : Word :=
  ((List.range' (4 * (n / 4)) (n % 4)).map (bytes.getD · 0)).foldl shiftInByte 0

/-- With header byte `n` the counter's part grows by that byte. -/
theorem shiftInByte_counterPart (bytes : List Byte) (n : Nat) :
    shiftInByte (counterPart bytes n) (bytes.getD n 0) =
      ((List.range' (4 * (n / 4)) (n % 4 + 1)).map (bytes.getD · 0)).foldl shiftInByte 0 := by
  rw [List.range'_concat, List.map_append, List.foldl_append, ← counterPart, Nat.one_mul, Nat.div_add_mod]
  rfl

/-- A counter's fourth byte completes it. -/
theorem shiftInByte_counterPart_last (bytes : List Byte) {n : Nat} (hn : n % 4 = 3) :
    shiftInByte (counterPart bytes n) (bytes.getD n 0) = headerCounter bytes (n / 4) := by
  rw [shiftInByte_counterPart, hn]
  exact shiftInByte_four ..

/-- What is carried on is the part of the counter the next header byte continues. -/
theorem carryCounter_counterPart (bytes : List Byte) (n : Nat) :
    carryCounter n (shiftInByte (counterPart bytes n) (bytes.getD n 0)) = counterPart bytes (n + 1) := by
  by_cases hn : n % 4 = 3
  · rw [carryCounter, if_pos hn, counterPart, show (n + 1) % 4 = 0 by omega]
    rfl
  · rw [carryCounter, if_neg hn, shiftInByte_counterPart, counterPart, show (n + 1) % 4 = n % 4 + 1 by omega,
      show (n + 1) / 4 = n / 4 by omega]

/-! ### FREQ while the header arrives -/

theorem headerInto_zero (bytes : List Byte) (freq : Vector Word 256) : headerInto bytes 0 freq = freq := by
  ext n hn
  simp [headerInto]

theorem headerInto_succ (bytes : List Byte) {m : Nat} (hm : m < 256) (freq : Vector Word 256) :
    headerInto bytes (m + 1) freq =
      setAt (headerInto bytes m freq) (BitVec.ofNat 8 m) (headerCounter bytes m) := by
  ext n hn
  have hidx : m % 256 = m := Nat.mod_eq_of_lt hm
  by_cases hmn : m = n
  · subst hmn
    simp [headerInto, setAt, hidx]
  · have hiff : n ≤ m ↔ n < m := by omega
    simp [headerInto, setAt, hidx, hmn, hiff]

/-- READ_HEADER's data once `n` bytes of `bytes` have arrived: the flags are cleared (R63), and FREQ holds the counters
that are whole (R192). -/
def withHeaderBytes (bytes : List Byte) (n : Nat) (s : State) : State :=
  { s with
    treeValid := false, codesValid := false, decDone := false
    freq := headerInto bytes (n / 4) s.freq, inPos := s.inPos + n }

theorem withHeaderBytes_zero (bytes : List Byte) (s : State) : withHeaderBytes bytes 0 s = clearAllValid s := by
  rw [withHeaderBytes, Nat.zero_div, headerInto_zero]
  rfl

theorem unread_withHeaderBytes (bytes : List Byte) (n : Nat) (s : State) :
    unread (withHeaderBytes bytes n s) = (unread s).drop n := List.drop_drop.symm

theorem storeCounter_withHeaderBytes (bytes : List Byte) {n : Nat} (hn : n < 1024) (s : State) :
    storeCounter n (shiftInByte (counterPart bytes n) (bytes.getD n 0)) (consume (withHeaderBytes bytes n s)) =
      withHeaderBytes bytes (n + 1) s := by
  by_cases h3 : n % 4 = 3
  · rw [storeCounter, if_pos h3, shiftInByte_counterPart_last bytes h3, withHeaderBytes, withHeaderBytes,
      show (n + 1) / 4 = n / 4 + 1 by omega, headerInto_succ bytes (by omega)]
    rfl
  · rw [storeCounter, if_neg h3, withHeaderBytes, withHeaderBytes, show (n + 1) / 4 = n / 4 by omega]
    rfl

/-! ### The loop -/

/-- One header byte. -/
theorem readHeaderLoop_byte {s : State} {n : Nat} (hlen : n < (unread s).length) (hn : n < 1024) (k : Nat) :
    readHeaderLoop (k + 1) n (counterPart (unread s) n) (withHeaderBytes (unread s) n s) =
      readHeaderLoop k (n + 1) (counterPart (unread s) (n + 1)) (withHeaderBytes (unread s) (n + 1) s) := by
  have hnext : unread (withHeaderBytes (unread s) n s) = (unread s).getD n 0 :: (unread s).drop (n + 1) := by
    rw [unread_withHeaderBytes, List.drop_eq_getElem_cons hlen, List.getD_eq_getElem _ _ hlen]
  rw [readHeaderLoop_cons hnext, carryCounter_counterPart, storeCounter_withHeaderBytes _ hn]

/-- The first `n` header bytes, of the `n + k` to be read. -/
theorem readHeaderLoop_bytes {s : State} {n k : Nat} (hlen : n ≤ (unread s).length) (hk : n + k = 1024) :
    readHeaderLoop 1024 0 0 (clearAllValid s) =
      readHeaderLoop k n (counterPart (unread s) n) (withHeaderBytes (unread s) n s) := by
  induction n generalizing k with
  | zero =>
    obtain rfl : k = 1024 := by omega
    rw [withHeaderBytes_zero]
    rfl
  | succ n ih => rw [ih (k := k + 1) (by omega) (by omega), readHeaderLoop_byte hlen (by omega)]

/-! ### How READ_HEADER ends -/

/-- READ_HEADER's data after the whole header and the `last_bits` byte `b` (R191). -/
def withHeaderRead (b : Byte) (s : State) : State :=
  { withHeaderBytes (unread s) 1024 s with lastBits := b.setWidth 3, inPos := s.inPos + 1025 }

/-- A byte after the whole header is the next one unread. -/
theorem unread_lastBits {s : State} {b : Byte} (h : (unread s)[1024]? = some b) :
    unread (withHeaderBytes (unread s) 1024 s) = b :: (unread s).drop 1025 ∧ 1024 ≤ (unread s).length := by
  obtain ⟨hlt, hb⟩ := List.getElem?_eq_some_iff.1 h
  rw [unread_withHeaderBytes, List.drop_eq_getElem_cons hlt, hb]
  exact ⟨rfl, hlt.le⟩

theorem readHeaderBody_reads {s : State} {b : Byte} (h : (unread s)[1024]? = some b) (hb : b.toNat ≤ 7) :
    readHeaderBody s = .next (finishElement (withHeaderRead b s)) := by
  obtain ⟨hnext, hlen⟩ := unread_lastBits h
  have hloop := readHeaderLoop_bytes (k := 0) hlen rfl
  rw [lastBits_read hnext hb] at hloop
  exact congrArg Host.Outcome.next hloop

theorem readHeaderBody_outOfRange {s : State} {b : Byte} (h : (unread s)[1024]? = some b) (hb : 7 < b.toNat) :
    readHeaderBody s =
      .next (abort .lastBitsRange (b.setWidth 32) (consume (withHeaderBytes (unread s) 1024 s))) := by
  obtain ⟨hnext, hlen⟩ := unread_lastBits h
  have hloop := readHeaderLoop_bytes (k := 0) hlen rfl
  rw [lastBits_outOfRange hnext hb] at hloop
  exact congrArg Host.Outcome.next hloop

theorem readHeaderBody_absent {s : State} (h : (unread s).length = 1024) :
    readHeaderBody s = .next (abort .lastBitsAbsent 1024 (withHeaderBytes (unread s) 1024 s)) := by
  have hnext : unread (withHeaderBytes (unread s) 1024 s) = [] := by
    rw [unread_withHeaderBytes, List.drop_of_length_le h.le]
  have hloop := readHeaderLoop_bytes (k := 0) h.ge rfl
  rw [lastBits_absent hnext] at hloop
  exact congrArg Host.Outcome.next hloop

theorem readHeaderBody_truncated {s : State} (h : (unread s).length < 1024) :
    readHeaderBody s = .next (abort .headerTruncated (BitVec.ofNat 32 (unread s).length)
      (withHeaderBytes (unread s) (unread s).length s)) := by
  obtain ⟨k, hk⟩ : ∃ k, (unread s).length + (k + 1) = 1024 := ⟨1023 - (unread s).length, by omega⟩
  have hnext : unread (withHeaderBytes (unread s) (unread s).length s) = [] := by
    rw [unread_withHeaderBytes, List.drop_length]
  have hloop := readHeaderLoop_bytes le_rfl hk
  rw [readHeaderLoop_eos hnext] at hloop
  exact congrArg Host.Outcome.next hloop

/-- Settles O29: the loop writes all 256 counters, and the byte after them is `last_bits`. -/
theorem readHeaderFillsFreq : Obligations.ReadHeaderFillsFreq := by
  intro s b hb h hrange
  have hend : finishElement (withHeaderRead b (accept .readHeader s)) = withHeaderRead b (completed s) :=
    finishElement_primitive (i := .readHeader) (s := s) rfl rfl
  rw [exec_primitive (by decide) rfl hb]
  exact (readHeaderBody_reads (s := accept .readHeader s) h hrange).trans (congrArg Host.Outcome.next hend)

/-- Settles O30: the loop ends where no byte is unread, with the whole counters written. -/
theorem readHeaderTruncated : Obligations.ReadHeaderTruncated := by
  intro s hb h
  rw [exec_primitive (by decide) rfl hb]
  exact readHeaderBody_truncated (s := accept .readHeader s) h

/-- Settles O31: after the 256 counters there is no byte, or one above 7. -/
theorem readHeaderLastBitsErrors : Obligations.ReadHeaderLastBitsErrors := by
  intro s hb
  rw [exec_primitive (by decide) rfl hb]
  exact ⟨readHeaderBody_absent (s := accept .readHeader s),
    fun b => readHeaderBody_outOfRange (s := accept .readHeader s)⟩

end Sys2Proof.Machine
end

section
/-! SUPPORT. DECODE_BODY and VERIFY (43_decoder.md R194, R195, R197): the walk over the body's bits, the symbols it
emits and counts, and the comparison of the counts. -/

namespace Sys2Proof.Machine

/-! ### The verification counters (10_state.md R27) -/

/-- VFREQ after the symbols have been counted, each as it was emitted (R194). -/
def bumpAll (syms : List Byte) (vfreq : Vector VCount 256) : Vector VCount 256 :=
  syms.foldl (fun t sym => setAt t sym (bumpVCount (getAt t sym))) vfreq

theorem getAt_vcountsOf (bytes : List Byte) (sym : Byte) :
    (getAt (vcountsOf bytes) sym).val = min (bytes.count sym) 4294967296 := by
  simp [getAt, vcountsOf]

theorem bumpVCount_val (v : VCount) : (bumpVCount v).val = min (v.val + 1) 4294967296 := by
  unfold bumpVCount
  split
  · exact (Nat.min_eq_left (by omega)).symm
  · have := v.isLt
    omega

theorem vcountsOf_nil : vcountsOf [] = Vector.replicate 256 0 :=
  vector_ext_getAt fun sym => Fin.ext <| by rw [getAt_vcountsOf, getAt_replicate, List.count_nil]; rfl

/-- One more symbol is one more in its counter, unless the counter is saturated. -/
theorem vcountsOf_concat (bytes : List Byte) (b : Byte) :
    vcountsOf (bytes ++ [b]) = setAt (vcountsOf bytes) b (bumpVCount (getAt (vcountsOf bytes) b)) := by
  refine vector_ext_getAt fun sym => Fin.ext ?_
  rw [getAt_setAt, getAt_vcountsOf, List.count_append, List.count_singleton]
  by_cases h : b = sym
  · subst h
    rw [if_pos rfl, if_pos (beq_self_eq_true b), bumpVCount_val, getAt_vcountsOf]
    omega
  · rw [if_neg h, if_neg (by simpa using h), Nat.add_zero, getAt_vcountsOf]

/-- From the cleared counters on, VFREQ holds the counts of the emitted symbols. -/
theorem bumpAll_cleared (syms : List Byte) : bumpAll syms (Vector.replicate 256 0) = vcountsOf syms := by
  induction syms using List.reverseRecOn with
  | nil => exact vcountsOf_nil.symm
  | append_singleton syms sym ih =>
    rw [vcountsOf_concat, ← ih]
    exact List.foldl_concat ..

/-! ### The walk over a list of bits -/

/-- The walk over `bits` from WALK. -/
def walkFrom (bits : List Bool) (s : State) : List Byte × NodeIdx := decodeWalk s.nodes s.root s.walk bits

/-- The data after the walk over `bits`: the symbols reached are emitted and counted, and WALK is where it ends. -/
def walked (bits : List Bool) (s : State) : State :=
  { outWriteAll (walkFrom bits s).1 s with
    vfreq := bumpAll (walkFrom bits s).1 s.vfreq, walk := (walkFrom bits s).2 }

theorem walked_nil (s : State) : walked [] s = s := by
  have hnone : walkFrom [] s = ([], s.walk) := rfl
  rw [walked, hnone, outWriteAll_nil]
  rfl

theorem walked_cons (bit : Bool) (bits : List Bool) (s : State) :
    walked (bit :: bits) s = walked bits (walkOn bit s) := by
  rcases walkOn_cases bit s with ⟨hn, hon⟩ | ⟨hn, hon⟩
  · have hwalk : walkFrom (bit :: bits) s =
        (symbolOf (childOf s.nodes s.walk bit) :: (walkFrom bits (walkOn bit s)).1,
          (walkFrom bits (walkOn bit s)).2) := by rw [hon]; exact if_pos hn
    rw [walked, walked, hwalk, outWriteAll_cons, hon]
    rfl
  · have hwalk : walkFrom (bit :: bits) s = walkFrom bits (walkOn bit s) := by
      rw [hon]
      exact if_neg (ne_true_of_eq_false hn)
    rw [walked, walked, hwalk, hon]
    rfl

theorem walked_append (bits rest : List Bool) (s : State) :
    walked (bits ++ rest) s = walked rest (walked bits s) := by
  induction bits generalizing s with
  | nil => rw [List.nil_append, walked_nil]
  | cons bit bits ih => rw [List.cons_append, walked_cons, walked_cons, ih]

theorem lowBits_succ (b : Byte) (k : Nat) : lowBits b (k + 1) = b.getLsbD k :: lowBits b k := by
  rw [lowBits, lowBits, List.range_succ_eq_map, List.map_cons, List.map_map]
  refine congrArg (_ :: ·) (List.map_congr_left fun i _ => ?_)
  exact congrArg b.getLsbD (by simp only [Nat.succ_eq_add_one]; omega)

theorem walkOn_pending (bit : Bool) (s : State) : (walkOn bit s).pending = s.pending := by
  rcases walkOn_cases bit s with ⟨-, hon⟩ | ⟨-, hon⟩
  · rw [hon]
    rfl
  · rw [hon]

/-- A command runs with WALK and ROOT on internal nodes: WALK_OFF_TREE is out of reach (R196). -/
def Walking (s : State) : Prop := s.busy = true ∧ OnTree s ∧ s.nodes[s.root].leaf = false

theorem Walking.walkOn {s : State} (h : Walking s) (bit : Bool) : Walking (walkOn bit s) := by
  obtain ⟨hb, -, hroot⟩ := h
  refine ⟨busy_of_control (control_walkOn bit s) hb, onTree_walkOn bit hroot, ?_⟩
  rcases walkOn_cases bit s with ⟨-, hon⟩ | ⟨-, hon⟩
  · rw [hon]
    exact hroot
  · rw [hon]
    exact hroot

theorem Walking.walked {s : State} (h : Walking s) (bits : List Bool) : Walking (walked bits s) := by
  induction bits generalizing s with
  | nil => rwa [walked_nil]
  | cons bit bits ih =>
    rw [walked_cons]
    exact ih (h.walkOn bit)

/-- `WalkBits` walks the low bits of PENDING, the highest first. -/
theorem walkByte_eq {s : State} (h : Walking s) (k : Nat) : walkByte k s = walked (lowBits s.pending k) s := by
  induction k generalizing s with
  | zero => exact (walked_nil s).symm
  | succ k ih =>
    have ⟨hb, hon, _⟩ := h
    rw [walkByte_onTree hon hb, ih (h.walkOn _), walkOn_pending, lowBits_succ, walked_cons]

/-! ### The loop of DECODE_BODY -/

/-- The data after the final bookkeeping: TRAIL_PARTIAL and DEC_DONE; PENDING and WALK are unspecified (R195). -/
def withWalkEnd (s : State) : State :=
  releaseWalk { s with trailPartial := decide (s.walk ≠ s.root), decDone := true, pendingValid := false }

theorem walkFinish_eq (s : State) : walkFinish s = finishElement (withWalkEnd s) := rfl

/-- IN_POS moves past `n` bytes. -/
def consumeAll (n : Nat) (s : State) : State := { s with inPos := s.inPos + n }

theorem consumeAll_consume (n : Nat) (s : State) : consumeAll n (consume s) = consumeAll (n + 1) s := by
  have hpos : s.inPos + 1 + n = s.inPos + (n + 1) := by omega
  simp only [consumeAll, consume, hpos]

/-- A byte that is held changes nothing in the walk, nor in how it ends: PENDING is unspecified from there on. -/
theorem withWalkEnd_holdByte (bits : List Bool) (n : Nat) (b : Byte) (s : State) :
    withWalkEnd (walked bits (consumeAll n (holdByte b s))) = withWalkEnd (walked bits (consumeAll n s)) := rfl

theorem walked_consumeAll (bits : List Bool) (n : Nat) (s : State) :
    walked bits (consumeAll n s) = consumeAll n (walked bits s) := rfl

/-- The next byte is held once the one before it, if any, has been walked. -/
theorem walkLoop_cons (b : Byte) (rest : List Byte) {s u : State}
    (hu : (if s.pendingValid then walkByte 8 (consume s) else consume s) = u) (hb : u.busy = true) :
    walkLoop (b :: rest) s = walkLoop rest (holdByte b u) := by
  subst hu
  exact if_pos hb

/-- While a byte is held, the loop walks its bits and those of the bytes still unread, and then ends. -/
theorem walkLoop_held (bytes : List Byte) {s : State} (h : Walking s) (hp : s.pendingValid = true) :
    walkLoop bytes s =
      finishElement (withWalkEnd (walked (bodyBits s.lastBits (s.pending :: bytes)) (consumeAll bytes.length s))) := by
  induction bytes generalizing s with
  | nil =>
    have hlast := h.walked (lowBits s.pending (finalBits s.lastBits))
    have hend : walkLoop [] s = walkEnd s := rfl
    rw [hend, walkEnd, if_pos hp, walkByte_eq h]
    exact if_pos hlast.1
  | cons b rest ih =>
    have hconsume : Walking (consume s) := h
    have hnext := hconsume.walked (lowBits s.pending 8)
    have hbyte : walkByte 8 (consume s) = walked (lowBits s.pending 8) (consume s) := walkByte_eq hconsume 8
    have hheld : Walking (holdByte b (walked (lowBits s.pending 8) (consume s))) := hnext
    have hbits : bodyBits s.lastBits (s.pending :: b :: rest) =
        lowBits s.pending 8 ++ bodyBits s.lastBits (b :: rest) := rfl
    rw [walkLoop_cons b rest ((if_pos hp).trans hbyte) hnext.1, ih hheld rfl, withWalkEnd_holdByte,
      hbits, walked_append, List.length_cons, ← consumeAll_consume, walked_consumeAll (lowBits s.pending 8)]
    rfl

/-- Before the first byte no byte is held. -/
theorem walkLoop_start (bytes : List Byte) {s : State} (h : Walking s) (hp : s.pendingValid = false) :
    walkLoop bytes s =
      finishElement (withWalkEnd (walked (bodyBits s.lastBits bytes) (consumeAll bytes.length s))) := by
  cases bytes with
  | nil =>
    have hend : walkLoop [] s = walkEnd s := rfl
    rw [hend, walkEnd, if_neg (ne_true_of_eq_false hp), walkFinish_eq, bodyBits, walked_nil]
    rfl
  | cons b rest =>
    have hheld : Walking (holdByte b (consume s)) := h
    rw [walkLoop_cons b rest (if_neg (ne_true_of_eq_false hp)) h.1, walkLoop_held rest hheld rfl, withWalkEnd_holdByte,
      List.length_cons, ← consumeAll_consume]
    rfl

/-! ### DECODE_BODY (R194) -/

/-- What DECODE_BODY adds when the walk over the body emits `syms` and leaves the walk `off` ROOT or on it (R194,
R195). -/
def withBodyRead (syms : List Byte) (off : Bool) (s : State) : State :=
  releaseWalk { outWriteAll syms (consumeAll (unread s).length s) with
    vfreq := vcountsOf syms, trailPartial := off, decDone := true, pendingValid := false }

theorem withWalkEnd_walked (bits : List Bool) (s : State) :
    withWalkEnd (walked bits (consumeAll (unread s).length (walkClear s))) =
      withBodyRead (decodeWalk s.nodes s.root s.root bits).1
        (decide ((decodeWalk s.nodes s.root s.root bits).2 ≠ s.root)) s := by
  rw [withBodyRead, ← bumpAll_cleared]
  rfl

theorem decodeBodyBody_eq {s : State} (hb : s.busy = true) (hv : s.treeValid = true)
    (hroot : s.nodes[s.root].leaf = false) {r : List Byte × NodeIdx}
    (hr : decodeWalk s.nodes s.root s.root (bodyBits s.lastBits (unread s)) = r) :
    decodeBodyBody s = .next (finishElement (withBodyRead r.1 (decide (r.2 ≠ s.root)) s)) := by
  have hwalking : Walking (walkClear s) := ⟨hb, hroot, hroot⟩
  subst hr
  refine (require_of_set hv _ _ s).trans ?_
  rw [walkLoop_start (unread s) hwalking rfl, ← withWalkEnd_walked]
  rfl

theorem control_withBodyRead (syms : List Byte) (off : Bool) (s : State) :
    control (withBodyRead syms off s) = control s := rfl

theorem complete_withBodyRead (syms : List Byte) (off : Bool) (s : State) :
    complete (withBodyRead syms off s) = withBodyRead syms off (complete s) := rfl

theorem exec_decodeBody {s : State} (hb : s.busy = false) (hv : s.treeValid = true)
    (hroot : s.nodes[s.root].leaf = false) {r : List Byte × NodeIdx}
    (hr : decodeWalk s.nodes s.root s.root (bodyBits s.lastBits (unread s)) = r) :
    exec .decodeBody s = .next (withBodyRead r.1 (decide (r.2 ≠ s.root)) (completed s)) := by
  have hend (off : Bool) : finishElement (withBodyRead r.1 off (accept .decodeBody s)) =
      withBodyRead r.1 off (completed s) := finishElement_primitive (i := .decodeBody) (s := s) rfl rfl
  rw [exec_primitive (by decide) rfl hb]
  exact (decodeBodyBody_eq (s := accept .decodeBody s) rfl hv hroot hr).trans (congrArg Host.Outcome.next (hend _))

/-- OUT_COUNT is 0 after acceptance, so it comes to hold the number of symbols emitted (10_state.md R49). -/
theorem withBodyRead_of_outCount_eq_zero (syms : List Byte) (off : Bool) {s : State} (h : s.outCount = 0) :
    withBodyRead syms off s = { s with
      decDone := true, trailPartial := off, vfreq := vcountsOf syms, inPos := s.inPos + (unread s).length
      sink := s.sink ++ syms, outCount := BitVec.ofNat 32 syms.length
      pendingValid := false, pending := Config.freePending s.draws, walk := Config.freeWalk s.draws
      draws := s.draws + 1 } := by
  rw [withBodyRead, outWriteAll_of_outCount_eq_zero _ (s := consumeAll (unread s).length s) h]
  rfl

/-- Settles O32: the loop walks the bits of the unread bytes on the tree, and the element completes the command. -/
theorem decodeBodyWalksBits : Obligations.DecodeBodyWalksBits := by
  intro s hb hv hroot r
  rw [exec_decodeBody hb hv hroot (r := r) rfl, withBodyRead_of_outCount_eq_zero _ _ rfl]
  exact ⟨_, _, _, rfl⟩

/-! ### VERIFY (R197) -/

theorem countsAgree_iff {sym : Byte} {s : State} :
    countsAgree sym s = true ↔ (getAt s.vfreq sym).val = (getAt s.freq sym).toNat := beq_iff_eq

/-- The comparisons pass over symbols whose counts agree. -/
theorem verifyLoop_append {syms : List Byte} (rest : List Byte) {s : State}
    (h : ∀ sym ∈ syms, (getAt s.vfreq sym).val = (getAt s.freq sym).toNat) :
    verifyLoop (syms ++ rest) s = verifyLoop rest s := by
  induction syms with
  | nil => rfl
  | cons sym syms ih =>
    obtain ⟨hsym, hsyms⟩ := List.forall_mem_cons.1 h
    rw [List.cons_append, verifyLoop_cons, if_pos (countsAgree_iff.2 hsym), ih hsyms]

theorem verifyBody_passes {s : State} (hd : s.decDone = true)
    (h : ∀ sym, (getAt s.vfreq sym).val = (getAt s.freq sym).toNat) :
    verifyBody s = .next (finishElement s) := by
  have hloop := verifyLoop_append (syms := symbols) [] fun sym _ => h sym
  rw [List.append_nil] at hloop
  exact (require_of_set hd _ _ s).trans (congrArg Host.Outcome.next hloop)

/-- The symbols in front of `sym` are those below it. -/
theorem symbols_eq_append (sym : Byte) :
    ∃ below above, symbols = below ++ sym :: above ∧ ∀ a ∈ below, a < sym := by
  have hsym : symbols[sym.toNat]? = some sym := by simp [symbols, sym.isLt]
  refine ⟨_, _, (eq_take_append_of_getElem? hsym).1, fun a ha => ?_⟩
  rw [symbols, ← List.map_take, List.take_range] at ha
  obtain ⟨n, hn, rfl⟩ := List.mem_map.1 ha
  have hlt := List.mem_range.1 hn
  rw [BitVec.lt_def, BitVec.toNat_ofNat]
  omega

theorem verifyBody_mismatch {s : State} {sym : Byte} (hd : s.decDone = true)
    (hsym : (getAt s.vfreq sym).val ≠ (getAt s.freq sym).toNat)
    (h : ∀ a : Byte, a < sym → (getAt s.vfreq a).val = (getAt s.freq a).toNat) :
    verifyBody s = .next (mismatch sym s) := by
  obtain ⟨below, above, hsplit, hbelow⟩ := symbols_eq_append sym
  refine (require_of_set hd _ _ s).trans (congrArg Host.Outcome.next ?_)
  rw [hsplit, verifyLoop_append _ fun a ha => h a (hbelow a ha), verifyLoop_cons]
  exact if_neg (mt countsAgree_iff.1 hsym)

/-- Settles O33: every comparison passes, and the last one completes the command. -/
theorem verifyPasses : Obligations.VerifyPasses := by
  intro s hb hd h
  have hend : finishElement (accept .verify s) = completed s := finishElement_primitive (i := .verify) (s := s) rfl rfl
  rw [exec_primitive (by decide) rfl hb]
  exact (verifyBody_passes (s := accept .verify s) hd h).trans (congrArg Host.Outcome.next hend)

/-- Settles O34: the symbols are compared upward, so the lowest that differs ends the command. -/
theorem verifyReportsLowestMismatch : Obligations.VerifyReportsLowestMismatch := by
  intro s sym hb hd hsym h
  rw [exec_primitive (by decide) rfl hb]
  exact verifyBody_mismatch (s := accept .verify s) hd hsym h

end Sys2Proof.Machine
end

section
/-! SUPPORT. The macro DECODE (43_decoder.md R199, R200): its five elements run one after another, and undo what ENCODE
emits. -/

namespace Sys2Proof.Machine

/-! ### DECODE (R106, R199) -/

theorem complete_withHeaderRead (b : Byte) (s : State) :
    complete (withHeaderRead b s) = withHeaderRead b (complete s) := rfl

/-- The data after READ_HEADER and BUILD_TREE of the whole source, with `nodes` the tree (R199). -/
def withTreeOfHeader (b : Byte) (nodes : Vector Node 511) (s : State) : State :=
  withTree nodes (withHeaderRead b (rewindInput s))

/-- DECODE from a tree that is built: its last two elements emit the symbols of the body, and find the header's counts
in them (R199). -/
theorem runElements_walk {s : State} (h : RunsBefore [.verify] s) (hv : s.treeValid = true)
    (hroot : s.nodes[s.root].leaf = false) {r : List Byte × NodeIdx}
    (hr : decodeWalk s.nodes s.root s.root (bodyBits s.lastBits (unread s)) = r)
    (hcounts : ∀ sym, (getAt (vcountsOf r.1) sym).val = (getAt s.freq sym).toNat) :
    runElements ([.decodeBody, .verify].map elementBody) s =
      .next (withBodyRead r.1 (decide (r.2 ≠ s.root)) (complete s)) := by
  have hverify {t : State} (hd : t.decDone = true) (hvfreq : t.vfreq = vcountsOf r.1) (hfreq : t.freq = s.freq) :
      elementBody .verify t = .next (finishElement t) :=
    verifyBody_passes hd fun sym => by rw [hvfreq, hfreq, hcounts sym]
  refine runElements_finish h (u := withBodyRead _ _ s) (decodeBodyBody_eq h.1 hv hroot hr) rfl fun h => ?_
  refine (runElements_last h (hverify rfl rfl rfl) rfl).trans ?_
  rw [complete_nextElement, complete_withBodyRead]

/-- DECODE of a consistent file runs its five elements, each from what the one before it left (R199). -/
theorem exec_decode {s : State} {b : Byte} {r : List Byte × NodeIdx} (hb : s.busy = false)
    (hlast : s.src[1024]? = some b) (hrange : b.toNat ≤ 7)
    (hr : decodeWalk (treeOf (headerInto s.src 256 s.freq)) 510 510 (bodyBits (b.setWidth 3) (s.src.drop 1025)) = r)
    (hcounts : ∀ sym, (getAt (vcountsOf r.1) sym).val = (getAt (headerInto s.src 256 s.freq) sym).toNat) :
    exec .decode s = .next (withBodyRead r.1 (decide (r.2 ≠ 510))
      (withTreeOfHeader b (treeOf (headerInto s.src 256 s.freq)) (completed s))) := by
  have hbuild {t : State} (ht : t.freq = headerInto s.src 256 s.freq) :
      elementBody .buildTree t = .next (finishElement (withTree (treeOf (headerInto s.src 256 s.freq)) t)) :=
    ht ▸ buildBody_eq t
  have hroot := (treeOf_shape (headerInto s.src 256 s.freq)).root_internal
  generalize treeOf (headerInto s.src 256 s.freq) = nodes at hr hbuild hroot ⊢
  rw [exec_eq_issue (by decide), issue_idle hb]
  refine runElements_finish (runsBefore_accept .decode s) (u := rewindInput _) rfl rfl fun h => ?_
  refine runElements_finish h (u := withHeaderRead b _) (readHeaderBody_reads hlast hrange) rfl fun h => ?_
  refine runElements_finish h (u := withTree nodes _) (hbuild rfl) rfl fun h => ?_
  refine (runElements_walk h rfl hroot hr hcounts).trans ?_
  simp only [complete_nextElement, complete_withTree, complete_withHeaderRead, complete_rewindInput, complete_accept]
  rfl

/-- The header is 1025 bytes, and the body is the rest of the source. -/
theorem length_of_lastBits {src : List Byte} {b : Byte} (h : src[1024]? = some b) :
    1025 + (src.drop 1025).length = src.length := by
  obtain ⟨hlt, -⟩ := List.getElem?_eq_some_iff.1 h
  rw [List.length_drop]
  omega

/-- What DECODE changes in all, from an empty OUT_COUNT (R199). -/
theorem withBodyRead_withTreeOfHeader {s : State} {b : Byte} (h : s.outCount = 0) (hlast : s.src[1024]? = some b)
    (syms : List Byte) (off : Bool) (nodes : Vector Node 511) :
    withBodyRead syms off (withTreeOfHeader b nodes s) = { s with
      treeValid := true, codesValid := false, decDone := true, trailPartial := off
      freq := headerInto s.src 256 s.freq, vfreq := vcountsOf syms, lastBits := b.setWidth 3
      inPos := s.src.length, nodes := nodes, root := 510, q := [], nextNode := Config.freeNext s.draws
      pendingValid := false, pending := Config.freePending (s.draws + 1), walk := Config.freeWalk (s.draws + 1)
      draws := s.draws + 2, sink := s.sink ++ syms, outCount := BitVec.ofNat 32 syms.length } := by
  rw [withBodyRead_of_outCount_eq_zero _ _ (s := withTreeOfHeader b nodes s) h, ← length_of_lastBits hlast]
  rfl

/-- Settles O35: the header's tree is walked over the body, and the counts of the symbols pass the comparison. -/
theorem decodeCompletes : Obligations.DecodeCompletes := by
  intro s b hb hlast hrange freq r hcounts
  rw [exec_decode hb hlast hrange (r := r) rfl hcounts, withBodyRead_withTreeOfHeader (s := completed s) rfl hlast]
  exact ⟨_, _, _, _, rfl⟩

/-! ### The body read back (20_memory.md R77, R78; 43 R190) -/

/-- Up to eight bits are read back from the byte they were put in. -/
theorem lowBits_bitsToByte {c : List Bool} (h : c.length ≤ 8) : lowBits (bitsToByte c) c.length = c := by
  refine List.ext_getElem (by rw [lowBits, List.length_map, List.length_range]) fun i _ hi => ?_
  have hlt : c.length - 1 - i < 8 := by omega
  simp only [lowBits, List.getElem_map, List.getElem_range]
  rw [bitsToByte, BitVec.getLsbD_ofNat, testBit_bitsToNat,
    List.getElem?_reverse (by omega), show c.length - 1 - (c.length - 1 - i) = i by omega,
    List.getElem?_eq_getElem hi, Option.getD_some, decide_eq_true hlt, Bool.true_and]

/-- LAST_BITS of `n` bits tells how many of them the final byte holds (R190). -/
theorem finalBits_ofNat (n : Nat) : finalBits (BitVec.ofNat 3 n) = if n % 8 = 0 then 8 else n % 8 := by
  have hzero : BitVec.ofNat 3 n = 0 ↔ n % 8 = 0 := by simp [← BitVec.toNat_inj]
  simp only [finalBits, hzero, BitVec.toNat_ofNat]

theorem lowBits_wholeByte {bits : List Bool} (h : 8 ≤ bits.length) :
    lowBits (bitsToByte (bits.take 8)) 8 = bits.take 8 := by
  have htake : (bits.take 8).length = 8 := List.length_take_of_le h
  have hbyte := lowBits_bitsToByte htake.le
  rwa [htake] at hbyte

/-- A whole byte does not change the number of bits mod 8. -/
theorem lastBits_drop {bits : List Bool} (h : 8 ≤ bits.length) :
    BitVec.ofNat 3 bits.length = BitVec.ofNat 3 (bits.drop 8).length := by
  rw [lastBits_mod, lastBits_mod (bits.drop 8).length, List.length_drop, Nat.mod_eq_sub_mod h]

/-- Unpacking undoes packing, when LAST_BITS holds the number of bits mod 8. -/
theorem bodyBits_packBits (bits : List Bool) : bodyBits (BitVec.ofNat 3 bits.length) (packBits bits) = bits := by
  by_cases hnil : bits = []
  · subst hnil
    rfl
  have hpos : 0 < bits.length := List.length_pos_iff.2 hnil
  rw [packBits_of_ne_nil hnil]
  by_cases hlast : bits.drop 8 = []
  · have hle : bits.length ≤ 8 := List.drop_eq_nil_iff.1 hlast
    have hfinal : finalBits (BitVec.ofNat 3 bits.length) = bits.length := by
      rw [finalBits_ofNat]
      split <;> omega
    rw [hlast, packBits_nil, List.take_of_length_le hle, bodyBits, hfinal, lowBits_bitsToByte hle]
  · have hle : 8 ≤ bits.length := by
      by_contra hlt
      exact hlast (List.drop_of_length_le (Nat.le_of_not_le hlt))
    rw [packBits_of_ne_nil hlast, bodyBits, ← packBits_of_ne_nil hlast, lowBits_wholeByte hle, lastBits_drop hle,
      bodyBits_packBits (bits.drop 8), List.take_append_drop]
termination_by bits.length
decreasing_by
  rw [List.length_drop]
  omega

/-! ### The walk over a bitstream (30_encoding.md R114, R115) -/

section
variable {nodes : Vector Node 511} {root w : NodeIdx} {sym : Byte}

/-- The walk down a path to a leaf emits its symbol and goes on from ROOT. -/
theorem decodeWalk_leafPath {bit : Bool} {path : List Bool} (rest : List Bool)
    (h : LeafPath nodes (leafOf sym) (childOf nodes w bit) path) :
    decodeWalk nodes root w (bit :: (path ++ rest)) =
      (sym :: (decodeWalk nodes root root rest).1, (decodeWalk nodes root root rest).2) := by
  induction path generalizing w bit with
  | nil =>
    obtain ⟨hleaf, hn⟩ := h
    rw [decodeWalk, if_pos hn, hleaf, symbolOf_leafOf]
    rfl
  | cons bit' path ih =>
    obtain ⟨hn, hpath⟩ := h
    rw [decodeWalk, if_neg (ne_true_of_eq_false hn)]
    exact ih hpath

/-- A symbol's code is walked from ROOT to the symbol (R113, R115). -/
theorem decodeWalk_code {path : List Bool} (rest : List Bool) (hroot : nodes[root].leaf = false)
    (h : LeafPath nodes (leafOf sym) root path) :
    decodeWalk nodes root root (path ++ rest) =
      (sym :: (decodeWalk nodes root root rest).1, (decodeWalk nodes root root rest).2) := by
  cases path with
  | nil => exact absurd (hroot.symm.trans h.2) Bool.false_ne_true
  | cons bit path => exact decodeWalk_leafPath rest h.2

end

/-- On a full tree the walk over the codes of `bytes` emits `bytes` and ends at ROOT. -/
theorem decodeWalk_bitstream {freq : Vector Word 256} {nodes : Vector Node 511} (htree : TreeShape freq nodes)
    (bytes : List Byte) : decodeWalk nodes 510 510 (bitstream (codesOf nodes) bytes) = (bytes, 510) := by
  induction bytes with
  | nil => rfl
  | cons b bytes ih =>
    have hcode := leafPath_codeBits htree (visit_eq_codesOf htree (Vector.replicate 256 ⟨0, 0⟩)) b
    rw [bitstream_cons, decodeWalk_code _ htree.root_internal hcode, ih]

/-! ### The file read back (R110 to R114, R200) -/

/-- The header of a file gives the counts back, whatever FREQ held. -/
theorem headerInto_fileOf (bytes : List Byte) (freq : Vector Word 256) :
    headerInto (fileOf bytes) 256 freq = countsOf bytes := by
  refine vector_ext_getAt fun sym => ?_
  have hcounter := headerCounter_headerBytesOf (countsOf bytes)
    ([BitVec.ofNat 8 ((bitstream (codesFor bytes) bytes).length % 8)] ++
      packBits (bitstream (codesFor bytes) bytes)) sym.toFin
  rw [← List.append_assoc] at hcounter
  simp only [headerInto, getAt, Vector.getElem_ofFn, sym.isLt, if_true]
  exact hcounter

theorem headerBytesOf_drop (freq : Vector Word 256) (rest : List Byte) (k : Nat) :
    (headerBytesOf freq ++ rest).drop (1024 + k) = rest.drop k := by
  rw [← headerBytesOf_length freq, List.drop_length_add_append]

/-- The byte after a file's header, and its body. -/
theorem fileOf_lastBits (bytes : List Byte) :
    (fileOf bytes)[1024]? = some (BitVec.ofNat 8 ((bitstream (codesFor bytes) bytes).length % 8)) ∧
      (fileOf bytes).drop 1025 = packBits (bitstream (codesFor bytes) bytes) := by
  have hfile : fileOf bytes = headerBytesOf (countsOf bytes) ++
      (BitVec.ofNat 8 ((bitstream (codesFor bytes) bytes).length % 8) ::
        packBits (bitstream (codesFor bytes) bytes)) := by
    rw [← List.singleton_append, ← List.append_assoc]
    rfl
  rw [hfile]
  refine ⟨?_, headerBytesOf_drop _ _ 1⟩
  rw [List.getElem?_append_right (headerBytesOf_length _).le, headerBytesOf_length]
  rfl

/-- LAST_BITS as it comes back from its byte. -/
theorem lastBits_setWidth (n : Nat) : (BitVec.ofNat 8 (n % 8)).setWidth 3 = BitVec.ofNat 3 n := by
  apply BitVec.eq_of_toNat_eq
  simp

/-- The walk over the body of a file emits the bytes the file was made of. -/
theorem decodeWalk_fileOf (bytes : List Byte) (freq : Vector Word 256) :
    decodeWalk (treeOf (headerInto (fileOf bytes) 256 freq)) 510 510
      (bodyBits ((BitVec.ofNat 8 ((bitstream (codesFor bytes) bytes).length % 8)).setWidth 3)
        ((fileOf bytes).drop 1025)) = (bytes, 510) := by
  rw [headerInto_fileOf, (fileOf_lastBits bytes).2, lastBits_setWidth, bodyBits_packBits]
  exact decodeWalk_bitstream (treeOf_shape _) bytes

/-- Fewer than 2^32 bytes saturate no verification counter (10_state.md R27). -/
theorem getAt_vcountsOf_eq {bytes : List Byte} (hlen : bytes.length < 2 ^ 32) (sym : Byte) :
    (getAt (vcountsOf bytes) sym).val = (getAt (countsOf bytes) sym).toNat := by
  have hcount : bytes.count sym ≤ bytes.length := List.count_le_length
  rw [getAt_vcountsOf, getAt_countsOf_toNat hlen]
  omega

/-- DECODE of the file of `bytes` emits `bytes`, and its walk ends at ROOT (R200). -/
theorem exec_decode_fileOf {s : State} {bytes : List Byte} (hb : s.busy = false) (hsrc : s.src = fileOf bytes)
    (hlen : bytes.length < 2 ^ 32) :
    exec .decode s = .next (withBodyRead bytes false (withTreeOfHeader
      (BitVec.ofNat 8 ((bitstream (codesFor bytes) bytes).length % 8)) (treeOf (countsOf bytes)) (completed s))) := by
  obtain ⟨hlast, -⟩ := fileOf_lastBits bytes
  have hwalk := decodeWalk_fileOf bytes s.freq
  have hcounts := getAt_vcountsOf_eq hlen
  rw [← headerInto_fileOf bytes s.freq] at hcounts ⊢
  rw [← hsrc] at hlast hwalk hcounts ⊢
  refine (exec_decode hb hlast ?_ hwalk hcounts).trans ?_
  · rw [BitVec.toNat_ofNat]
    omega
  · rw [decide_eq_false (not_not_intro rfl)]

/-- What the round trip needs of ENCODE: the file, and what LAST_BITS and the arena hold (R177, R178). -/
theorem exec_encode_file {s : State} {bytes : List Byte} (hb : s.busy = false) (hsrc : s.src = bytes)
    (hlen : bytes.length < 2 ^ 32) :
    ∃ t, exec .encode s = .next t ∧ t.sink = s.sink ++ fileOf bytes ∧
      t.lastBits = BitVec.ofNat 3 (bitstream (codesFor bytes) bytes).length ∧ t.nodes = treeOf (countsOf bytes) := by
  subst hsrc
  obtain ⟨⟨next, draws, hencode⟩, -, -⟩ := encodeEmitsFile s hb hlen
  generalize treeOf (countsOf s.src) = nodes at hencode ⊢
  exact ⟨_, hencode, rfl, (lastBits_mod _).symm, rfl⟩

/-- Settles O36: ENCODE emits the file of `bytes`, whose header gives their tree and whose body is the walk to them. -/
theorem roundTrip : Obligations.RoundTrip := by
  intro s u bytes hs hu hlen
  obtain ⟨t, hencode, hsink, hlast, hnodes⟩ := exec_encode_file (s := { s with src := bytes }) hs rfl hlen
  have hfreq : headerInto (completed { u with src := fileOf bytes }).src 256
      (completed { u with src := fileOf bytes }).freq = countsOf bytes := headerInto_fileOf bytes u.freq
  refine ⟨t, fileOf bytes, hencode, hsink, ?_⟩
  rw [exec_decode_fileOf (s := { u with src := fileOf bytes }) hu rfl hlen,
    withBodyRead_withTreeOfHeader (s := completed { u with src := fileOf bytes }) rfl (fileOf_lastBits bytes).1,
    hfreq, lastBits_setWidth, hlast, hnodes]
  generalize fileOf bytes = file
  exact ⟨_, _, _, _, rfl⟩

end Sys2Proof.Machine
end

section
/-! SUPPORT. The error causes (60_exceptions.md R221 to R229): the illegal command word, the missing prerequisite, and
the causes a macro can end with. -/

namespace Sys2Proof.Machine

/-! ### The illegal command word (R228) -/

theorem decode_error_of_illegal {w : Word} (h : wordWellFormed w = false) : ∃ e, decode w = .error e := by
  cases hw : decode w with
  | error e => exact ⟨e, rfl⟩
  | ok i =>
    have hlegal : wordWellFormed w = true := (decodeAcceptsExactlyLegalWords w).1.2 ⟨i, hw⟩
    exact absurd (h.symm.trans hlegal) Bool.false_ne_true

theorem writeCmd_illegal {w : Word} {e : DecodeError} (hw : decode w = .error e) (s : State) :
    writeCmd w s = whileIdle (illegalCommand w) s := by
  rw [writeCmd, hw]
  rfl

/-- OP and CAUSE are the two bytes of ERR_CAUSE (R44). -/
theorem errCauseWord_eq_or (s : State) :
    errCauseWord s = (s.errOp.setWidth 32 <<< 8) ||| (causeCode s.errCause).setWidth 32 := by
  refine BitVec.eq_of_getLsbD_eq fun i hi => ?_
  simp only [errCauseWord, BitVec.getLsbD_append, BitVec.getLsbD_or, BitVec.getLsbD_shiftLeft, BitVec.getLsbD_setWidth]
  by_cases hcause : i < 8
  · simp [hcause, hi]
  · have hhigh : (causeCode s.errCause).getLsbD i = false := BitVec.getLsbD_of_ge _ _ (Nat.le_of_not_lt hcause)
    by_cases hop : i - 8 < 8
    · simp [hcause, hop, hi, hhigh, show i - 8 < 32 by omega]
    · simp [hcause, hop, hhigh, BitVec.getLsbD_of_ge _ _ (Nat.le_of_not_lt hop)]

/-- Settles O8: an illegal word decodes to no command, so its write raises the error while idle and is dropped while
busy. -/
theorem illegalWordRaises : Obligations.IllegalWordRaises := by
  intro s w hw
  obtain ⟨e, hdecode⟩ := decode_error_of_illegal hw
  have hwrite : hostWrite 0x08 w s = .next (whileIdle (illegalCommand w) s) := by
    rw [hostWrite_reg (r := .cmd) rfl rfl, writeReg, writeCmd_illegal hdecode]
  rw [hwrite]
  refine ⟨fun hb => ⟨illegalCommand w s, ?_, rfl, errCauseWord_eq_or _⟩, fun hb => ?_⟩
  · rw [whileIdle, if_neg (ne_true_of_eq_false hb)]
  · rw [whileIdle, if_pos hb]
    rfl

/-! ### The missing prerequisite (R107, R229) -/

theorem abort_accept {i : Instr} (he : expansion i = [i]) (cause : Cause) (info : Word) (s : State) :
    abort cause info (accept i s) = aborted (opcodeOf i) cause info s := by
  have hop : (accept i s).curOp = opcodeOf i := by rw [accept_curOp, he, List.headD_cons]
  rw [abort, hop]
  rfl

/-- A primitive whose first micro-step raises SEQUENCE ends there (R107). -/
theorem exec_missingFlag {i : Instr} (hi : i ≠ .reset) (he : expansion i = [i]) {missing : Word} {s : State}
    (hb : s.busy = false) (hbody : elementBody i (accept i s) = .next (abort .sequence missing (accept i s)))
    (hstep : runningStep (accept i s) = .next (abort .sequence missing (accept i s))) :
    exec i s = .next (aborted (opcodeOf i) .sequence missing s) ∧ microStep (accept i s) = exec i s := by
  rw [exec_primitive hi he hb, microStep_busy rfl, hbody, hstep, abort_accept he]
  exact ⟨rfl, rfl⟩

/-- Settles O37: each of the five primitives, and its first micro-step, begin with the check of the flag. -/
theorem missingFlagRaisesSequence : Obligations.MissingFlagRaisesSequence := by
  intro s hb
  simp only [List.forall_mem_cons]
  refine ⟨fun h => ?_, fun h => ?_, fun h => ?_, fun h => ?_, fun h => ?_, nofun⟩
  all_goals
    have hclear := ne_true_of_eq_false h
    exact exec_missingFlag (by decide) rfl hb (if_neg hclear) (if_neg hclear)

/-! ### The causes of the macros (R223, R196) -/

/-- The run ends in a next state with one of the causes. -/
def EndsWith (causes : List Cause) (r : Result) : Prop := ∃ t, r = .next t ∧ t.errCause ∈ causes

/-- An element that ends where another one follows passes on what that one's run ends with (R106). -/
theorem EndsWith.finish {causes : List Cause} {e e' : Instr} {rest : List Instr} {s u : State}
    (h : RunsBefore (e' :: rest) s) (hbody : elementBody e s = .next (finishElement u)) (hc : control u = control s)
    (hrest : RunsBefore rest (nextElement e' u) →
      EndsWith causes (runElements ((e' :: rest).map elementBody) (nextElement e' u))) :
    EndsWith causes (runElements ((e :: e' :: rest).map elementBody) s) := by
  rw [runElements_finish h hbody hc fun _ => rfl]
  exact hrest (h.of_control hc).nextElement

/-- An element that raises an error ends the command with its cause (R226). -/
theorem EndsWith.abort {causes : List Cause} {e : Instr} {s u : State} {cause : Cause} {info : Word}
    (rest : List Instr) (hbody : elementBody e s = .next (abort cause info u)) (hcause : cause ∈ causes) :
    EndsWith causes (runElements ((e :: rest).map elementBody) s) := by
  refine ⟨Machine.abort cause info u, ?_, hcause⟩
  rw [List.map_cons, runElements_cons_next hbody]
  rfl

/-- The last element completes the command, which then has the cause it ran with. -/
theorem EndsWith.complete {causes : List Cause} {e : Instr} {s u : State} (h : RunsBefore [] s)
    (hbody : elementBody e s = .next (finishElement u)) (hc : control u = control s) (hcause : s.errCause ∈ causes) :
    EndsWith causes (runElements [elementBody e] s) := by
  refine ⟨Machine.complete u, runElements_last h hbody hc, ?_⟩
  rw [complete_errCause, (reports_of_control hc).2.2]
  exact hcause

/-- The causes READ_HEADER can raise (R191). -/
def headerCauses : List Cause := [.headerTruncated, .lastBitsAbsent, .lastBitsRange]

/-- READ_HEADER finds the whole header, or raises one of its three errors (R191). -/
theorem readHeaderBody_cases (s : State) :
    (∃ b, readHeaderBody s = .next (finishElement (withHeaderRead b s))) ∨
    ∃ cause info u, cause ∈ headerCauses ∧ readHeaderBody s = .next (abort cause info u) := by
  rcases Nat.lt_trichotomy (unread s).length 1024 with hshort | habsent | hlong
  · exact .inr ⟨_, _, _, by decide, readHeaderBody_truncated hshort⟩
  · exact .inr ⟨_, _, _, by decide, readHeaderBody_absent habsent⟩
  · have hbyte := List.getElem?_eq_getElem hlong
    by_cases hrange : (unread s)[1024].toNat ≤ 7
    · exact .inl ⟨_, readHeaderBody_reads hbyte hrange⟩
    · exact .inr ⟨_, _, _, by decide, readHeaderBody_outOfRange hbyte (Nat.lt_of_not_le hrange)⟩

theorem verifyLoop_cases (syms : List Byte) (s : State) :
    verifyLoop syms s = finishElement s ∨ ∃ sym, verifyLoop syms s = mismatch sym s := by
  induction syms with
  | nil => exact .inl rfl
  | cons sym rest ih =>
    rw [verifyLoop_cons]
    split
    · exact ih
    · exact .inr ⟨sym, rfl⟩

/-- The causes DECODE can end with (R223, R196). -/
def decodeCauses : List Cause := [.none, .headerTruncated, .lastBitsAbsent, .lastBitsRange, .checksumMismatch]

/-- VERIFY after DECODE_BODY completes the command or finds a mismatch (R197). -/
theorem endsWith_verify {s : State} (h : RunsBefore [] s) (hd : s.decDone = true) (hcause : s.errCause = .none) :
    EndsWith decodeCauses (runElements ([.verify].map elementBody) s) := by
  have hbody : elementBody .verify s = .next (verifyLoop symbols s) := by
    rw [elementBody, verifyBody, hd, require_set]
  rcases verifyLoop_cases symbols s with hend | ⟨sym, hend⟩ <;> rw [hend] at hbody
  · exact .complete h hbody rfl (hcause ▸ List.mem_cons_self)
  · exact .abort [] hbody (by decide)

/-- DECODE_BODY on a tree with an internal root raises nothing (R196). -/
theorem endsWith_walk {s : State} (h : RunsBefore [.verify] s) (hv : s.treeValid = true)
    (hroot : s.nodes[s.root].leaf = false) (hcause : s.errCause = .none) :
    EndsWith decodeCauses (runElements ([.decodeBody, .verify].map elementBody) s) :=
  .finish h (decodeBodyBody_eq h.1 hv hroot rfl) (control_withBodyRead _ _ _) fun h => endsWith_verify h rfl hcause

/-- BUILD_TREE gives the walk its tree, from every table of counters (R145). -/
theorem endsWith_buildTree {s : State} (h : RunsBefore [.decodeBody, .verify] s) (hcause : s.errCause = .none) :
    EndsWith decodeCauses (runElements ([.buildTree, .decodeBody, .verify].map elementBody) s) := by
  have hbuild : elementBody .buildTree s = .next (finishElement (withTree (treeOf s.freq) s)) := buildBody_eq s
  have hroot := (treeOf_shape s.freq).root_internal
  generalize treeOf s.freq = nodes at hbuild hroot
  exact .finish h hbuild rfl fun h => endsWith_walk h rfl hroot hcause

theorem decode_endsWith {s : State} (hb : s.busy = false) : EndsWith decodeCauses (exec .decode s) := by
  rw [exec_eq_issue (by decide), issue_idle hb]
  refine .finish (runsBefore_accept .decode s) (u := rewindInput _) rfl rfl fun h => ?_
  rcases readHeaderBody_cases (nextElement .readHeader (rewindInput (accept .decode s))) with
    ⟨b, hread⟩ | ⟨cause, info, u, hmem, hraise⟩
  · exact .finish h hread rfl fun h => endsWith_buildTree h rfl
  · have hsub : headerCauses ⊆ decodeCauses := by decide
    exact .abort _ hraise (hsub hmem)

/-- COUNT of at most 2^32 - 1 bytes lets ENCODE complete, and of more raises INPUT_TOO_LONG (R177). -/
theorem encode_endsWith {s : State} (hb : s.busy = false) :
    EndsWith [.none, .inputTooLong] (exec .encode s) := by
  by_cases hlen : s.src.length < 2 ^ 32
  · exact ⟨_, exec_encode hb hlen, List.mem_cons_self⟩
  · have hbyte := List.getElem?_eq_getElem (l := s.src) (i := 2 ^ 32 - 1) (by omega)
    obtain ⟨hsplit, hfull⟩ := eq_take_append_of_getElem? hbyte
    exact ⟨_, exec_encode_refuses hb hsplit hfull, List.mem_cons_of_mem _ List.mem_cons_self⟩

/-- Settles O38: each element of a macro ends by leading on to the next one, or with an error of its own. -/
theorem macrosRaiseOnlyTheirCauses : Obligations.MacrosRaiseOnlyTheirCauses :=
  fun _ hb => ⟨encode_endsWith hb, decode_endsWith hb⟩

end Sys2Proof.Machine
end

section
/-! SUPPORT. OVERRUN beside a running command (60_exceptions.md R224): no micro-step reads the flag, so a dropped write
before the micro-step leaves what one after it leaves. -/

namespace Sys2Proof.Machine

/-- A dropped write after the result, where the model has not stopped (R224). -/
def dropAfter (r : Result) : Result := andThen r fun t => .next (dropWrite t)

/-- Where a test comes out the same, a function that commutes with both branches commutes with the test. -/
theorem ite_eq_apply {α β : Type} {f : α → β} {c : Prop} [Decidable c] {a b : α} {a' b' : β} (ha : a' = f a)
    (hb : b' = f b) : (if c then a' else b') = f (if c then a else b) := by
  rw [apply_ite f, ha, hb]

/-! ### The parts of a micro-step -/

theorem finishElement_dropWrite (s : State) : finishElement (dropWrite s) = dropWrite (finishElement s) := by
  have hlater : laterElements (dropWrite s) = laterElements s := rfl
  unfold finishElement
  rw [hlater]
  cases laterElements s <;> rfl

theorem buildFinish_dropWrite (s : State) : buildFinish (dropWrite s) = dropWrite (buildFinish s) :=
  finishElement_dropWrite (releaseNext { s with root := s.q.headD s.root, q := [], treeValid := true })

theorem buildInit_dropWrite (s : State) : buildInit (dropWrite s) = dropWrite (buildInit s) := by
  simp only [buildInit, clearTreeValid, dropWrite]

theorem headerSum_dropWrite (s : State) : headerSum (dropWrite s) = dropWrite (headerSum s) := by
  simp only [headerSum, dropWrite]

theorem storeCounter_dropWrite (n : Nat) (v : Word) (s : State) :
    storeCounter n v (dropWrite s) = dropWrite (storeCounter n v s) := ite_eq_apply rfl rfl

theorem clearAtFirst_dropWrite (n : Nat) (s : State) : clearAtFirst n (dropWrite s) = dropWrite (clearAtFirst n s) :=
  ite_eq_apply rfl rfl

theorem walkOn_dropWrite (bit : Bool) (s : State) : walkOn bit (dropWrite s) = dropWrite (walkOn bit s) :=
  ite_eq_apply rfl rfl

theorem walkFinish_dropWrite (s : State) : walkFinish (dropWrite s) = dropWrite (walkFinish s) :=
  finishElement_dropWrite (withWalkEnd s)

theorem walkByteDone_dropWrite (held : Option Byte) (s : State) :
    walkByteDone held (dropWrite s) = dropWrite (walkByteDone held s) := by
  cases held with
  | some b => rfl
  | none => exact walkFinish_dropWrite s

/-! ### The micro-steps -/

theorem stepCountRead_dropWrite (s : State) : stepCountRead (dropWrite s) = dropWrite (stepCountRead s) := by
  cases hr : unread s with
  | nil =>
    rw [stepCountRead_eos hr, stepCountRead_eos (s := dropWrite s) hr]
    exact finishElement_dropWrite s
  | cons b rest =>
    rw [stepCountRead_cons hr, stepCountRead_cons (s := dropWrite s) hr]
    exact ite_eq_apply rfl rfl

theorem stepBuildMerge_dropWrite (s : State) : stepBuildMerge (dropWrite s) = dropAfter (stepBuildMerge s) :=
  ite_eq_apply (congrArg Host.Outcome.next (buildFinish_dropWrite s)) (ite_eq_apply rfl rfl)

theorem deriveVisit_dropWrite (stack : List (NodeIdx × List Bool)) (s : State) :
    deriveVisit stack (dropWrite s) = dropAfter (deriveVisit stack s) := by
  match stack with
  | [] => exact congrArg Host.Outcome.next (finishElement_dropWrite { s with codesValid := true })
  | (n, c) :: rest =>
    cases hd : descend s.nodes (255 - c.length) n c rest with
    | none =>
      simp only [deriveVisit, dropWrite_nodes, hd]
      rfl
    | some found =>
      simp only [deriveVisit, dropWrite_nodes, hd]
      rfl

theorem stepPackRead_dropWrite (s : State) : stepPackRead (dropWrite s) = dropWrite (stepPackRead s) := by
  cases hr : unread s with
  | nil =>
    by_cases hacc : s.acc = []
    · rw [stepPackRead_done hr hacc, stepPackRead_done (s := dropWrite s) hr hacc]
      exact finishElement_dropWrite s
    · rw [stepPackRead_partial hr hacc, stepPackRead_partial (s := dropWrite s) hr hacc]
      rfl
  | cons b rest =>
    rw [stepPackRead_cons hr, stepPackRead_cons (s := dropWrite s) hr]
    rfl

theorem stepReadCounter_dropWrite (n : Nat) (v : Word) (s : State) :
    stepReadCounter n v (dropWrite s) = dropWrite (stepReadCounter n v s) := by
  cases hr : unread s with
  | nil =>
    rw [stepReadCounter_eos hr, stepReadCounter_eos (s := dropWrite s) hr, clearAtFirst_dropWrite]
    rfl
  | cons b rest =>
    have hconsume (u : State) : consume (dropWrite u) = dropWrite (consume u) := rfl
    rw [stepReadCounter_cons hr, stepReadCounter_cons (s := dropWrite s) hr, clearAtFirst_dropWrite, hconsume,
      storeCounter_dropWrite]
    rfl

theorem stepReadLast_dropWrite (s : State) : stepReadLast (dropWrite s) = dropWrite (stepReadLast s) := by
  unfold stepReadLast
  cases hr : unread s with
  | nil =>
    rw [lastBits_absent hr, lastBits_absent (s := dropWrite s) hr]
    rfl
  | cons b rest =>
    by_cases hb : b.toNat ≤ 7
    · rw [lastBits_read hr hb, lastBits_read (s := dropWrite s) hr hb]
      exact finishElement_dropWrite { consume s with lastBits := b.setWidth 3 }
    · have hb := Nat.lt_of_not_le hb
      rw [lastBits_outOfRange hr hb, lastBits_outOfRange (s := dropWrite s) hr hb]
      rfl

theorem stepWalkRead_dropWrite (s : State) : stepWalkRead (dropWrite s) = dropWrite (stepWalkRead s) := by
  cases hr : unread s with
  | nil =>
    rw [stepWalkRead_eos hr, stepWalkRead_eos (s := dropWrite s) hr]
    exact ite_eq_apply rfl (walkFinish_dropWrite s)
  | cons b rest =>
    rw [stepWalkRead_cons hr, stepWalkRead_cons (s := dropWrite s) hr]
    exact ite_eq_apply rfl rfl

theorem stepWalkBits_dropWrite (left : Nat) (held : Option Byte) {s : State} (hb : s.busy = true) :
    stepWalkBits left held (dropWrite s) = dropWrite (stepWalkBits left held s) := by
  match left with
  | 0 => exact walkByteDone_dropWrite held s
  | k + 1 =>
    cases hl : s.nodes[s.walk].leaf with
    | true =>
      rw [stepWalkBits_offTree hl, stepWalkBits_offTree (s := dropWrite s) hl]
      rfl
    | false =>
      cases k with
      | zero =>
        rw [stepWalkBits_last hl hb, stepWalkBits_last (s := dropWrite s) hl hb, walkOn_dropWrite,
          walkByteDone_dropWrite]
        rfl
      | succ k =>
        rw [stepWalkBits_more hl hb, stepWalkBits_more (s := dropWrite s) hl hb, walkOn_dropWrite]
        rfl

theorem stepVerifyAt_dropWrite (sym : Byte) (s : State) :
    stepVerifyAt sym (dropWrite s) = dropWrite (stepVerifyAt sym s) :=
  ite_eq_apply (ite_eq_apply (finishElement_dropWrite s) rfl) rfl

/-- A prerequisite check reads no more of the state than its flag. -/
theorem require_dropWrite {f : State → State} {s : State} (hf : f (dropWrite s) = dropWrite (f s)) (flag : Bool)
    (missing : Word) :
    require flag missing (fun t => .next (f t)) (dropWrite s) =
      dropAfter (require flag missing (fun t => .next (f t)) s) := by
  cases flag with
  | true => exact congrArg Host.Outcome.next hf
  | false => rfl

theorem runningStep_dropWrite {s : State} (hb : s.busy = true) :
    runningStep (dropWrite s) = dropAfter (runningStep s) := by
  have hnext {t u : State} (h : t = dropWrite u) : Host.Outcome.next t = dropAfter (.next u) :=
    congrArg Host.Outcome.next h
  cases hp : s.phase <;> simp only [runningStep, dropWrite_phase, hp]
  case idle => rfl
  case nop => exact hnext (finishElement_dropWrite s)
  case rewind => exact hnext (finishElement_dropWrite (rewindInput s))
  case countRead => exact hnext (stepCountRead_dropWrite s)
  case buildMerge => exact stepBuildMerge_dropWrite s
  case deriveCheck | headerCheck | packCheck | walkCheck | verifyCheck =>
    refine require_dropWrite ?_ _ _
    rfl
  case deriveVisit stack => exact deriveVisit_dropWrite stack s
  case headerLast => exact hnext (finishElement_dropWrite (outWrite (s.lastBits.setWidth 8) s))
  case packRead => exact hnext (stepPackRead_dropWrite s)
  case packFlush => exact hnext (finishElement_dropWrite { outWrite (bitsToByte s.acc) s with acc := [] })
  case readCounter n v => exact hnext (stepReadCounter_dropWrite n v s)
  case readLast => exact hnext (stepReadLast_dropWrite s)
  case walkRead => exact hnext (stepWalkRead_dropWrite s)
  case walkBits left held => exact hnext (stepWalkBits_dropWrite left held hb)
  case verifyAt sym => exact hnext (stepVerifyAt_dropWrite sym s)
  case headerSum => exact hnext (congrArg (goTo .headerLast) (headerSum_dropWrite s))
  case buildInit => exact hnext (congrArg (goTo .buildMerge) (buildInit_dropWrite s))
  case countClear | headerByte | packEmit | walkClear => rfl

/-- Settles O11: while busy each micro-step commutes with setting OVERRUN, and while idle there is none. -/
theorem overrunDoesNotAffectRun : Obligations.OverrunDoesNotAffectRun := by
  intro s
  change microStep (dropWrite s) = dropAfter (microStep s)
  cases hb : s.busy with
  | false =>
    rw [microStep_idle hb, microStep_idle (s := dropWrite s) hb]
    rfl
  | true =>
    rw [microStep_busy hb, microStep_busy (s := dropWrite s) hb]
    exact runningStep_dropWrite hb

end Sys2Proof.Machine
end

section
/-! SUPPORT. Unspecified values (70_reset_and_hazards.md R252): each element of a command, run from a state and from what
is visible of that state, leads to states alike in what is visible, and so does a whole command. -/

namespace Sys2Proof.Machine

/-! ### What is visible -/

section
variable {s : State}

theorem visible_visible (s : State) : visible (visible s) = visible s := by
  cases ht : s.treeValid <;> cases hc : s.codesValid <;> simp [visible, ht, hc]

theorem visible_nodes (hv : s.treeValid = true) : (visible s).nodes = s.nodes := if_pos hv

theorem visible_root (hv : s.treeValid = true) : (visible s).root = s.root := if_pos hv

/-- The flags speak of visible tables only (R63). -/
theorem flagsTrue_visible : FlagsTrue (visible s) ↔ FlagsTrue s := by
  refine and_congr (forall_congr' fun hv => ?_) Iff.rfl
  rw [visible_root (s := s) hv, visible_nodes (s := s) hv]
  rfl

theorem FlagsTrue.of_visible_eq {t : State} (h : FlagsTrue s) (hvis : visible t = visible s) : FlagsTrue t :=
  flagsTrue_visible.1 (hvis ▸ flagsTrue_visible.2 h)

theorem flagsTrue_finishElement (h : FlagsTrue s) : FlagsTrue (finishElement s) := (treeInv_finishElement h).flagsTrue

theorem busy_of_visible_eq {t : State} (h : visible t = visible s) : t.busy = s.busy :=
  have hbusy : (visible t).busy = (visible s).busy := congrArg State.busy h
  hbusy

end

/-- Neither the end of an element nor an abort reads or writes a table or a flag. -/
theorem finishElement_visible (s : State) : finishElement (visible s) = visible (finishElement s) := by
  have hlater : laterElements (visible s) = laterElements s := rfl
  unfold finishElement
  rw [hlater]
  cases laterElements s <;> rfl

theorem abort_visible (cause : Cause) (info : Word) (s : State) :
    abort cause info (visible s) = visible (abort cause info s) := rfl

/-! ### What the elements leave visible -/

theorem verifyLoop_visible (syms : List Byte) (s : State) :
    verifyLoop syms (visible s) = visible (verifyLoop syms s) := by
  induction syms with
  | nil => exact finishElement_visible s
  | cons sym rest ih => exact ite_eq_apply ih rfl

theorem flagsTrue_verifyLoop {s : State} (h : FlagsTrue s) (syms : List Byte) : FlagsTrue (verifyLoop syms s) := by
  rcases verifyLoop_cases syms s with hend | ⟨sym, hend⟩ <;> rw [hend]
  · exact flagsTrue_finishElement h
  · exact h

theorem visible_withCodes {s : State} (hv : s.treeValid = true) :
    visible (withCodes (visible s)) = visible (withCodes s) := by
  simp [visible, withCodes, hv]

theorem visible_withHeader {s : State} (hc : s.codesValid = true) :
    visible (withHeader (visible s)) = visible (withHeader s) := by
  have hcommute : withHeader (visible s) = visible (withHeader s) := by
    simp only [withHeader, headerSum, outWriteAll, visible, hc, if_true]
  rw [hcommute, visible_visible]

theorem visible_withBody {s : State} (hc : s.codesValid = true) (bytes : List Byte) :
    visible (withBody bytes (emptyAcc (visible s))) = visible (withBody bytes (emptyAcc s)) := by
  have hcommute : withBody bytes (emptyAcc (visible s)) = visible (withBody bytes (emptyAcc s)) := by
    simp only [withBody, emptyAcc, outWriteAll, visible, hc, if_true]
  rw [hcommute, visible_visible]

theorem visible_withBodyRead (syms : List Byte) (off : Bool) (s : State) :
    visible (withBodyRead syms off (visible s)) = visible (withBodyRead syms off s) :=
  visible_visible (withBodyRead syms off s)

theorem flagsTrue_withHeader {s : State} (h : FlagsTrue s) : FlagsTrue (withHeader s) := by
  rw [withHeader]
  generalize fileHeader s.codes s.freq = bytes
  simp only [FlagsTrue, headerSum]
  exact h

/-! ### One element -/

/-- From the state and from what is visible of it the body leads to next states alike in what is visible, with true
flags. -/
def KeepsVisible (body : State → Result) (s : State) : Prop :=
  ∃ t t', body s = .next t ∧ body (visible s) = .next t' ∧ FlagsTrue t ∧ visible t' = visible t

section
variable {body : State → Result} {s u u' : State}

theorem KeepsVisible.finish (h : body s = .next (finishElement u)) (h' : body (visible s) = .next (finishElement u'))
    (hflags : FlagsTrue u) (hvis : visible u' = visible u) : KeepsVisible body s := by
  refine ⟨_, _, h, h', flagsTrue_finishElement hflags, ?_⟩
  rw [← finishElement_visible, hvis, finishElement_visible]

theorem KeepsVisible.raise {cause : Cause} {info : Word} (h : body s = .next (abort cause info u))
    (h' : body (visible s) = .next (abort cause info u')) (hflags : FlagsTrue u) (hvis : visible u' = visible u) :
    KeepsVisible body s := by
  refine ⟨_, _, h, h', hflags, ?_⟩
  rw [← abort_visible, hvis, abort_visible]

/-- A failed prerequisite check reads the flag alone (30 R107). -/
theorem KeepsVisible.missing {flag : State → Bool} {missing : Word} {k : State → Result} (h : FlagsTrue s)
    (hclear : flag s = false) (hflag : flag (visible s) = flag s) :
    KeepsVisible (fun s => require (flag s) missing k s) s := by
  refine .raise (u := s) (u' := visible s) (cause := .sequence) (info := missing) ?_ ?_ h (visible_visible s)
  · rw [hclear, require_clear]
  · rw [hflag, hclear, require_clear]

theorem keepsVisible_count (hb : s.busy = true) : KeepsVisible countBody s := by
  have hflags (bytes : List Byte) : FlagsTrue (withCounts bytes s) := .of_cleared rfl rfl
  by_cases hlen : (unread s).length < 2 ^ 32
  · exact .finish (countBody_counts hb hlen) (countBody_counts (s := visible s) hb hlen) (hflags _) rfl
  · have hbyte := List.getElem?_eq_getElem (l := unread s) (i := 2 ^ 32 - 1) (by omega)
    obtain ⟨hsplit, hfull⟩ := eq_take_append_of_getElem? hbyte
    exact .raise (countBody_refuses hb hsplit hfull) (countBody_refuses (s := visible s) hb hsplit hfull) (hflags _) rfl

theorem keepsVisible_buildTree (s : State) : KeepsVisible buildBody s := by
  have hbuild := buildBody_eq s
  have hbuild' : buildBody (visible s) = .next (finishElement (withTree (treeOf s.freq) (visible s))) :=
    buildBody_eq (visible s)
  have hshape := treeOf_shape s.freq
  generalize treeOf s.freq = nodes at hbuild hbuild' hshape
  exact .finish hbuild hbuild' ⟨fun _ => ⟨rfl, hshape⟩, fun hc => absurd hc Bool.false_ne_true⟩ rfl

theorem keepsVisible_deriveCodes (h : FlagsTrue s) : KeepsVisible deriveBody s := by
  cases hv : s.treeValid with
  | false => exact .missing (flag := State.treeValid) h hv rfl
  | true =>
    obtain ⟨hroot, hshape⟩ := h.1 hv
    obtain ⟨hroot', hshape'⟩ := (flagsTrue_visible.2 h).1 hv
    exact .finish (deriveBody_eq hv hroot hshape) (deriveBody_eq (s := visible s) hv hroot' hshape')
      ⟨h.1, fun _ => hv⟩ (visible_withCodes hv)

theorem keepsVisible_writeHeader (h : FlagsTrue s) : KeepsVisible writeHeaderBody s := by
  cases hc : s.codesValid with
  | false => exact .missing (flag := State.codesValid) h hc rfl
  | true =>
    exact .finish (writeHeaderBody_eq hc) (writeHeaderBody_eq (s := visible s) hc) (flagsTrue_withHeader h)
      (visible_withHeader hc)

theorem keepsVisible_encodeBody (h : FlagsTrue s) : KeepsVisible encodeBodyBody s := by
  cases hc : s.codesValid with
  | false => exact .missing (flag := State.codesValid) h hc rfl
  | true =>
    exact .finish (encodeBodyBody_eq hc) (encodeBodyBody_eq (s := visible s) hc) h (visible_withBody hc _)

theorem keepsVisible_readHeader (s : State) : KeepsVisible readHeaderBody s := by
  have hflags (n : Nat) : FlagsTrue (withHeaderBytes (unread s) n s) := .of_cleared rfl rfl
  rcases Nat.lt_trichotomy (unread s).length 1024 with hshort | habsent | hlong
  · exact .raise (readHeaderBody_truncated hshort) (readHeaderBody_truncated (s := visible s) hshort) (hflags _) rfl
  · exact .raise (readHeaderBody_absent habsent) (readHeaderBody_absent (s := visible s) habsent) (hflags _) rfl
  · have hbyte := List.getElem?_eq_getElem hlong
    by_cases hrange : (unread s)[1024].toNat ≤ 7
    · exact .finish (readHeaderBody_reads hbyte hrange) (readHeaderBody_reads (s := visible s) hbyte hrange)
        (hflags _) rfl
    · have hrange := Nat.lt_of_not_le hrange
      exact .raise (readHeaderBody_outOfRange hbyte hrange) (readHeaderBody_outOfRange (s := visible s) hbyte hrange)
        (hflags _) rfl

theorem keepsVisible_decodeBody (hb : s.busy = true) (h : FlagsTrue s) : KeepsVisible decodeBodyBody s := by
  cases hv : s.treeValid with
  | false => exact .missing (flag := State.treeValid) h hv rfl
  | true =>
    have hroot := h.root_internal hv
    have hroot' := (flagsTrue_visible.2 h).root_internal hv
    refine .finish (decodeBodyBody_eq hb hv hroot rfl) (decodeBodyBody_eq (s := visible s) hb hv hroot' rfl) h ?_
    rw [visible_nodes hv, visible_root hv]
    exact visible_withBodyRead _ _ s

theorem keepsVisible_verify (h : FlagsTrue s) : KeepsVisible verifyBody s := by
  cases hd : s.decDone with
  | false => exact .missing (flag := State.decDone) h hd rfl
  | true =>
    refine ⟨_, _, require_of_set hd _ _ s, require_of_set hd _ _ (visible s), flagsTrue_verifyLoop h symbols, ?_⟩
    rw [verifyLoop_visible, visible_visible]

theorem keepsVisible_elementBody (e : Instr) (hb : s.busy = true) (h : FlagsTrue s) :
    KeepsVisible (elementBody e) s := by
  cases e with
  | nop => exact .finish (u := s) rfl rfl h (visible_visible s)
  | rewind => exact .finish (u := rewindInput s) rfl rfl h (visible_visible (rewindInput s))
  | count => exact keepsVisible_count hb
  | buildTree => exact keepsVisible_buildTree s
  | deriveCodes => exact keepsVisible_deriveCodes h
  | writeHeader => exact keepsVisible_writeHeader h
  | encodeBody => exact keepsVisible_encodeBody h
  | readHeader => exact keepsVisible_readHeader s
  | decodeBody => exact keepsVisible_decodeBody hb h
  | verify => exact keepsVisible_verify h
  | reset | encode | decode => exact ⟨s, visible s, rfl, rfl, h, visible_visible s⟩

end

/-! ### A whole command -/

/-- What is visible of a result. -/
def visibleResult (r : Result) : Result := andThen r fun t => .next (visible t)

theorem sameVisible_of_visibleResult {r r' : Result} (h : visibleResult r = visibleResult r') : SameVisible r r' := by
  cases r with
  | next t =>
    cases r' with
    | next t' => exact Host.Outcome.next.inj h
    | fault f' | refused q' => cases h
  | fault f =>
    cases r' with
    | fault f' => exact Host.Outcome.fault.inj h
    | next t' | refused q' => cases h
  | refused q =>
    cases r' with
    | refused q' => exact Host.Outcome.refused.inj h
    | next t' | fault f' => cases h

theorem visibleResult_runElements (elements : List Instr) {s : State} (hb : s.busy = true) (h : FlagsTrue s) :
    visibleResult (runElements (elements.map elementBody) (visible s)) =
      visibleResult (runElements (elements.map elementBody) s) := by
  induction elements generalizing s with
  | nil => exact congrArg Host.Outcome.next (visible_visible s)
  | cons e rest ih =>
    obtain ⟨t, t', ht, ht', hflags, hvis⟩ := keepsVisible_elementBody e hb h
    have hbusy := busy_of_visible_eq hvis
    rw [List.map_cons, runElements_cons_next ht, runElements_cons_next ht', hbusy]
    cases htb : t.busy with
    | false => exact congrArg Host.Outcome.next hvis
    | true =>
      have hrun := ih htb hflags
      have hrun' := ih (hbusy.trans htb) (hflags.of_visible_eq hvis)
      rw [hvis] at hrun'
      rw [if_pos rfl, if_pos rfl, ← hrun', hrun]

/-- What is visible of a command's result depends on what is visible of the state alone. -/
theorem visibleResult_exec (i : Instr) {s : State} (h : FlagsTrue s) :
    visibleResult (exec i (visible s)) = visibleResult (exec i s) := by
  by_cases hi : i = .reset
  · subst hi
    rfl
  · rw [exec_eq_issue hi, exec_eq_issue hi]
    cases hb : s.busy with
    | true =>
      rw [issue_busy hb, issue_busy (s := visible s) hb]
      exact congrArg Host.Outcome.next (visible_visible (dropWrite s))
    | false =>
      have haccept : accept i (visible s) = visible (accept i s) := rfl
      rw [issue_idle hb, issue_idle (s := visible s) hb, haccept]
      exact visibleResult_runElements (expansion i) (s := accept i s) rfl h

/-- Settles O60: both results are, in what is visible, the result from the visible part the two states share. -/
theorem unspecifiedValuesStayHidden : Obligations.UnspecifiedValuesStayHidden := by
  intro s s' i htree hvis
  have hflags := htree.flagsTrue
  have hflags' : FlagsTrue s' := hflags.of_visible_eq hvis.symm
  refine sameVisible_of_visibleResult ?_
  rw [← visibleResult_exec i hflags, hvis, visibleResult_exec i hflags']

end Sys2Proof.Machine
end

section
/-! SUPPORT. BUILD_TREE's micro-steps counted (70_reset_and_hazards.md R262): the leaves, 255 merges and the final
bookkeeping. -/

namespace Sys2Proof.Machine

/-- While two nodes are left in Q, BUILD_TREE's micro-step is one merge (R145). -/
theorem microStep_merge {s : State} (hb : s.busy = true) (h2 : 2 ≤ s.q.length) (hn : s.nextNode.toNat < 511) :
    microStep (goTo .buildMerge s) = .next (goTo .buildMerge (withForest (mergeOnce (forestOf s)) s)) := by
  have hmerge : canMerge (forestOf s) = true := by
    simp [canMerge, forestOf, hn, Nat.lt_of_succ_le h2]
  have hstep : stepBuildMerge (goTo .buildMerge s) =
      .next (goTo .buildMerge (withForest (mergeOnce (forestOf s)) s)) :=
    (if_neg (by change s.q.length ≠ 1; omega)).trans (if_pos hmerge)
  exact (microStep_busy (s := goTo .buildMerge s) hb).trans hstep

/-- `k` micro-steps are `k` merges, as long as Q keeps a node. -/
theorem microSteps_merges {k : Nat} {s : State} (hb : s.busy = true) (hk : k < s.q.length)
    (hsum : s.q.length + s.nextNode.toNat = 512) :
    microSteps k (goTo .buildMerge s) = .next (goTo .buildMerge (withForest (mergeTimes k (forestOf s)) s)) ∧
      (mergeTimes k (forestOf s)).q.length = s.q.length - k := by
  induction k generalizing s with
  | zero => exact ⟨rfl, rfl⟩
  | succ k ih =>
    obtain ⟨hq, hnext⟩ := mergeOnce_counts (f := forestOf s) (by change 2 ≤ s.q.length; omega) hsum
    have hlen : (withForest (mergeOnce (forestOf s)) s).q.length = s.q.length - 1 := hq
    have hnode : (withForest (mergeOnce (forestOf s)) s).nextNode.toNat = s.nextNode.toNat + 1 := hnext
    obtain ⟨hrun, hleft⟩ := ih (s := withForest (mergeOnce (forestOf s)) s) hb (by omega) (by omega)
    refine ⟨?_, hleft.trans (by omega)⟩
    rw [microSteps, microStep_merge hb (by omega) (by omega), andThen_next, hrun]
    rfl

theorem microStep_buildEnd {s : State} (hb : s.busy = true) (h1 : s.q.length = 1) :
    microStep (goTo .buildMerge s) = .next (buildFinish s) := by
  have hstep : stepBuildMerge (goTo .buildMerge s) = .next (buildFinish (goTo .buildMerge s)) := if_pos h1
  rw [buildFinish_goTo] at hstep
  exact (microStep_busy (s := goTo .buildMerge s) hb).trans hstep

/-- BUILD_TREE's data once the leaves and `k` merges are made (R145). -/
def afterMerges (k : Nat) (s : State) : State :=
  withForest (mergeTimes k (forestOf (buildInit s))) (buildInit s)

theorem buildBody_afterMerges (s : State) : buildBody s = .next (buildFinish (afterMerges 255 s)) := by
  have hbody : buildBody s = .next (buildFinish (afterMerges (leaves.length - 1) s)) := rfl
  rw [hbody, leaves_length]

/-- After the leaves and `k` merges, `256 - k` nodes are left in Q. -/
theorem microSteps_afterMerges {k : Nat} (hk : k < 256) (s : State) :
    microSteps (k + 1) (accept .buildTree s) = .next (goTo .buildMerge (afterMerges k (accept .buildTree s))) ∧
      (afterMerges k (accept .buildTree s)).q.length = 256 - k := by
  have hinit : runningStep (accept .buildTree s) = .next (goTo .buildMerge (buildInit (accept .buildTree s))) := rfl
  have hlen : (buildInit (accept .buildTree s)).q.length = 256 := leaves_length
  have hnode : (buildInit (accept .buildTree s)).nextNode.toNat = 256 := rfl
  obtain ⟨hrun, hleft⟩ := microSteps_merges (k := k) (s := buildInit (accept .buildTree s)) rfl (by omega) (by omega)
  rw [hlen] at hleft
  refine ⟨?_, hleft⟩
  rw [microSteps_succ_busy rfl, hinit, andThen_next, hrun, afterMerges]

/-- Settles O53: one micro-step for the leaves, 255 merges, each with a node left in Q to go on with, and the
final one. -/
theorem buildTreeMicroStepCount : Obligations.BuildTreeMicroStepCount := by
  intro s hb
  constructor
  · obtain ⟨hmerged, hlast⟩ := microSteps_afterMerges (k := 255) (by decide) s
    rw [exec_primitive (by decide) rfl hb, elementBody, buildBody_afterMerges, microSteps_add 256 1, hmerged,
      andThen_next, microSteps, microStep_buildEnd rfl hlast]
    rfl
  · intro k hk
    cases k with
    | zero => exact ⟨accept .buildTree s, rfl, rfl⟩
    | succ k => exact ⟨_, (microSteps_afterMerges (by omega) s).1, rfl⟩

end Sys2Proof.Machine
end

section
/-! SUPPORT. Hazards and reset (70_reset_and_hazards.md R250, R258): what a write while busy does, and the values the
reset action gives. -/

namespace Sys2Proof.Machine

/-! ### Writes while busy (R258) -/

theorem whileIdle_busy {s : State} (hb : s.busy = true) (f : State → State) : whileIdle f s = dropWrite s := if_pos hb

/-- The registers that a write changes while idle only (R38). -/
def idleRegs : List Reg := [.ctrl, .lastBits, .freqIdx, .freqData, .codeIdx, .nodeIdx]

theorem writeReg_busy {s : State} (hb : s.busy = true) (v : Word) : ∀ r ∈ idleRegs, writeReg r v s = dropWrite s := by
  simp only [idleRegs, List.forall_mem_cons]
  exact ⟨if_pos hb, if_pos hb, if_pos hb, if_pos hb, if_pos hb, if_pos hb, nofun⟩

theorem writeCmd_busy {s : State} (hb : s.busy = true) {w : Word} (hw : w ≠ encode .reset) :
    writeCmd w s = dropWrite s := by
  cases hd : decode w with
  | error e => rw [writeCmd_illegal hd, whileIdle_busy hb]
  | ok i =>
    have hi : i ≠ .reset := fun h => hw (by rw [← h, encode_of_decode hd])
    exact writeCmd_drops hd hi hb

theorem regAt_idleRegs : ∀ off ∈ [0x04, 0x18, 0x28, 0x2C, 0x38, 0x44],
    supportedOffset off = true ∧ ∃ r ∈ idleRegs, regAt off = some r := by decide

/-- Settles O9: the six offsets are those of the registers written while idle only, and RESET's word is the one command
word that acts while busy. -/
theorem busyWritesAreDropped : Obligations.BusyWritesAreDropped := by
  intro s v hb
  refine ⟨fun off hoff => ?_, fun hv => ?_⟩
  · obtain ⟨hsupported, r, hmem, hr⟩ := regAt_idleRegs off hoff
    rw [hostWrite_reg hsupported hr, writeReg_busy hb v r hmem]
    rfl
  · rw [hostWrite_reg (r := .cmd) rfl rfl, writeReg, writeCmd_busy hb (w := v) hv]
    rfl

/-! ### The reset action (R250) -/

theorem statusWord_resetAction (s : State) : statusWord (resetAction s) = 0 := by
  simp only [statusWord, irq, resetAction, State.reset]
  decide

/-- Settles O14: the command, the word's write and the hardware reset are all the reset action. -/
theorem resetGivesResetValues : Obligations.ResetGivesResetValues := by
  intro s
  have hwrite : hostWrite 0x08 0x00000001 s = .next (resetAction s) := by
    have hdecode : decode 0x00000001 = .ok .reset := decode_encode .reset
    rw [hostWrite_reg (r := .cmd) rfl rfl, writeReg, writeCmd, hdecode]
  exact ⟨resetAction s, _, _, _, _, _, _, _, rfl, hwrite, rfl, statusWord_resetAction s, rfl, rfl⟩

end Sys2Proof.Machine
end
